-- ==== Sys2Proof/Word.lean ====
section
/-! DEFINITION. The two word types of the machine (spec 00_scope.md R9): `u8` and `u16`. -/

namespace Sys2Proof

/-- `u8`: a register, a memory cell, an ALU operand (00 R7 `DATA_BITS`). -/
abbrev Byte := BitVec 8

/-- `u16`: an instruction's operand word, a pointer, a pushed program counter (00 R7 `ADDR_BITS`). -/
abbrev Word := BitVec 16

end Sys2Proof
end

