-- ==== Sys2Proof/Syntax.lean ====
section
/-! DEFINITION. The instruction set: one constructor for each of the 152 rows of spec/opcode_table.json
(30_encoding.md R121). The opcode byte fixes mnemonic and addressing mode (R110), so a pair that has no opcode
cannot be written (40_addressing_modes.md R152). A constructor keeps the operand bytes as R112 to R114 assemble
them: `b` the byte operand, `w` the word operand. BRK keeps no operand: its pad byte is discarded (R116). -/

namespace Sys2Proof

inductive Instr where
  -- Load, store, transfer (41_load_store_transfer.md)
  | ldaImm (b : Byte)  -- A9: LDA #b, R160
  | ldaZp (b : Byte)  -- A5: LDA $b, R160
  | ldaZpX (b : Byte)  -- B5: LDA $b,X, R160
  | ldaAbs (w : Word)  -- AD: LDA $w, R160
  | ldaAbsX (w : Word)  -- BD: LDA $w,X, R160
  | ldaAbsY (w : Word)  -- B9: LDA $w,Y, R160
  | ldaIndX (b : Byte)  -- A1: LDA ($b,X), R160
  | ldaIndY (b : Byte)  -- B1: LDA ($b),Y, R160
  | ldxImm (b : Byte)  -- A2: LDX #b, R161
  | ldxZp (b : Byte)  -- A6: LDX $b, R161
  | ldxZpY (b : Byte)  -- B6: LDX $b,Y, R161
  | ldxAbs (w : Word)  -- AE: LDX $w, R161
  | ldxAbsY (w : Word)  -- BE: LDX $w,Y, R161
  | ldyImm (b : Byte)  -- A0: LDY #b, R162
  | ldyZp (b : Byte)  -- A4: LDY $b, R162
  | ldyZpX (b : Byte)  -- B4: LDY $b,X, R162
  | ldyAbs (w : Word)  -- AC: LDY $w, R162
  | ldyAbsX (w : Word)  -- BC: LDY $w,X, R162
  | staZp (b : Byte)  -- 85: STA $b, R163
  | staZpX (b : Byte)  -- 95: STA $b,X, R163
  | staAbs (w : Word)  -- 8D: STA $w, R163
  | staAbsX (w : Word)  -- 9D: STA $w,X, R163
  | staAbsY (w : Word)  -- 99: STA $w,Y, R163
  | staIndX (b : Byte)  -- 81: STA ($b,X), R163
  | staIndY (b : Byte)  -- 91: STA ($b),Y, R163
  | stxZp (b : Byte)  -- 86: STX $b, R164
  | stxZpY (b : Byte)  -- 96: STX $b,Y, R164
  | stxAbs (w : Word)  -- 8E: STX $w, R164
  | styZp (b : Byte)  -- 84: STY $b, R165
  | styZpX (b : Byte)  -- 94: STY $b,X, R165
  | styAbs (w : Word)  -- 8C: STY $w, R165
  | tax  -- AA: TAX, R166
  | tay  -- A8: TAY, R167
  | txa  -- 8A: TXA, R168
  | tya  -- 98: TYA, R169
  | tsx  -- BA: TSX, R170
  | txs  -- 9A: TXS, R171
  -- Arithmetic, logic, compare, increment (42_arith_logic.md)
  | adcImm (b : Byte)  -- 69: ADC #b, R181
  | adcZp (b : Byte)  -- 65: ADC $b, R181
  | adcZpX (b : Byte)  -- 75: ADC $b,X, R181
  | adcAbs (w : Word)  -- 6D: ADC $w, R181
  | adcAbsX (w : Word)  -- 7D: ADC $w,X, R181
  | adcAbsY (w : Word)  -- 79: ADC $w,Y, R181
  | adcIndX (b : Byte)  -- 61: ADC ($b,X), R181
  | adcIndY (b : Byte)  -- 71: ADC ($b),Y, R181
  | sbcImm (b : Byte)  -- E9: SBC #b, R182
  | sbcZp (b : Byte)  -- E5: SBC $b, R182
  | sbcZpX (b : Byte)  -- F5: SBC $b,X, R182
  | sbcAbs (w : Word)  -- ED: SBC $w, R182
  | sbcAbsX (w : Word)  -- FD: SBC $w,X, R182
  | sbcAbsY (w : Word)  -- F9: SBC $w,Y, R182
  | sbcIndX (b : Byte)  -- E1: SBC ($b,X), R182
  | sbcIndY (b : Byte)  -- F1: SBC ($b),Y, R182
  | andImm (b : Byte)  -- 29: AND #b, R183
  | andZp (b : Byte)  -- 25: AND $b, R183
  | andZpX (b : Byte)  -- 35: AND $b,X, R183
  | andAbs (w : Word)  -- 2D: AND $w, R183
  | andAbsX (w : Word)  -- 3D: AND $w,X, R183
  | andAbsY (w : Word)  -- 39: AND $w,Y, R183
  | andIndX (b : Byte)  -- 21: AND ($b,X), R183
  | andIndY (b : Byte)  -- 31: AND ($b),Y, R183
  | oraImm (b : Byte)  -- 09: ORA #b, R184
  | oraZp (b : Byte)  -- 05: ORA $b, R184
  | oraZpX (b : Byte)  -- 15: ORA $b,X, R184
  | oraAbs (w : Word)  -- 0D: ORA $w, R184
  | oraAbsX (w : Word)  -- 1D: ORA $w,X, R184
  | oraAbsY (w : Word)  -- 19: ORA $w,Y, R184
  | oraIndX (b : Byte)  -- 01: ORA ($b,X), R184
  | oraIndY (b : Byte)  -- 11: ORA ($b),Y, R184
  | eorImm (b : Byte)  -- 49: EOR #b, R185
  | eorZp (b : Byte)  -- 45: EOR $b, R185
  | eorZpX (b : Byte)  -- 55: EOR $b,X, R185
  | eorAbs (w : Word)  -- 4D: EOR $w, R185
  | eorAbsX (w : Word)  -- 5D: EOR $w,X, R185
  | eorAbsY (w : Word)  -- 59: EOR $w,Y, R185
  | eorIndX (b : Byte)  -- 41: EOR ($b,X), R185
  | eorIndY (b : Byte)  -- 51: EOR ($b),Y, R185
  | bitZp (b : Byte)  -- 24: BIT $b, R186
  | bitAbs (w : Word)  -- 2C: BIT $w, R186
  | cmpImm (b : Byte)  -- C9: CMP #b, R188
  | cmpZp (b : Byte)  -- C5: CMP $b, R188
  | cmpZpX (b : Byte)  -- D5: CMP $b,X, R188
  | cmpAbs (w : Word)  -- CD: CMP $w, R188
  | cmpAbsX (w : Word)  -- DD: CMP $w,X, R188
  | cmpAbsY (w : Word)  -- D9: CMP $w,Y, R188
  | cmpIndX (b : Byte)  -- C1: CMP ($b,X), R188
  | cmpIndY (b : Byte)  -- D1: CMP ($b),Y, R188
  | cpxImm (b : Byte)  -- E0: CPX #b, R189
  | cpxZp (b : Byte)  -- E4: CPX $b, R189
  | cpxAbs (w : Word)  -- EC: CPX $w, R189
  | cpyImm (b : Byte)  -- C0: CPY #b, R190
  | cpyZp (b : Byte)  -- C4: CPY $b, R190
  | cpyAbs (w : Word)  -- CC: CPY $w, R190
  | incZp (b : Byte)  -- E6: INC $b, R191
  | incZpX (b : Byte)  -- F6: INC $b,X, R191
  | incAbs (w : Word)  -- EE: INC $w, R191
  | incAbsX (w : Word)  -- FE: INC $w,X, R191
  | decZp (b : Byte)  -- C6: DEC $b, R192
  | decZpX (b : Byte)  -- D6: DEC $b,X, R192
  | decAbs (w : Word)  -- CE: DEC $w, R192
  | decAbsX (w : Word)  -- DE: DEC $w,X, R192
  | inx  -- E8: INX, R193
  | iny  -- C8: INY, R194
  | dex  -- CA: DEX, R195
  | dey  -- 88: DEY, R196
  -- Shift and rotate (43_shift_rotate.md)
  | aslAcc  -- 0A: ASL A, R201
  | aslZp (b : Byte)  -- 06: ASL $b, R201
  | aslZpX (b : Byte)  -- 16: ASL $b,X, R201
  | aslAbs (w : Word)  -- 0E: ASL $w, R201
  | aslAbsX (w : Word)  -- 1E: ASL $w,X, R201
  | lsrAcc  -- 4A: LSR A, R202
  | lsrZp (b : Byte)  -- 46: LSR $b, R202
  | lsrZpX (b : Byte)  -- 56: LSR $b,X, R202
  | lsrAbs (w : Word)  -- 4E: LSR $w, R202
  | lsrAbsX (w : Word)  -- 5E: LSR $w,X, R202
  | rolAcc  -- 2A: ROL A, R203
  | rolZp (b : Byte)  -- 26: ROL $b, R203
  | rolZpX (b : Byte)  -- 36: ROL $b,X, R203
  | rolAbs (w : Word)  -- 2E: ROL $w, R203
  | rolAbsX (w : Word)  -- 3E: ROL $w,X, R203
  | rorAcc  -- 6A: ROR A, R204
  | rorZp (b : Byte)  -- 66: ROR $b, R204
  | rorZpX (b : Byte)  -- 76: ROR $b,X, R204
  | rorAbs (w : Word)  -- 6E: ROR $w, R204
  | rorAbsX (w : Word)  -- 7E: ROR $w,X, R204
  -- Control transfer (44_control_transfer.md)
  | bpl (b : Byte)  -- 10: BPL b, R211
  | bmi (b : Byte)  -- 30: BMI b, R212
  | bvc (b : Byte)  -- 50: BVC b, R213
  | bvs (b : Byte)  -- 70: BVS b, R214
  | bcc (b : Byte)  -- 90: BCC b, R215
  | bcs (b : Byte)  -- B0: BCS b, R216
  | bne (b : Byte)  -- D0: BNE b, R217
  | beq (b : Byte)  -- F0: BEQ b, R218
  | jmpAbs (w : Word)  -- 4C: JMP $w, R219
  | jmpInd (w : Word)  -- 6C: JMP ($w), R219
  | jsr (w : Word)  -- 20: JSR $w, R220
  | rts  -- 60: RTS, R221
  -- Stack, flag, system (45_stack_flag_system.md)
  | pha  -- 48: PHA, R230
  | pla  -- 68: PLA, R231
  | php  -- 08: PHP, R232
  | plp  -- 28: PLP, R233
  | clc  -- 18: CLC, R234
  | sec  -- 38: SEC, R235
  | cli  -- 58: CLI, R236
  | sei  -- 78: SEI, R237
  | clv  -- B8: CLV, R238
  | cld  -- D8: CLD, R239
  | sed  -- F8: SED, R240
  | nop  -- EA: NOP, R241
  | brk  -- 00: BRK, R249
  | rti  -- 40: RTI, R250
  | halt  -- FF: HALT, R251
  deriving DecidableEq, Repr

end Sys2Proof
end

