-- ==== Sys2Proof/WellFormed.lean ====
section
/-! DEFINITION. Which instructions are well formed: an instruction stands for a mnemonic and an addressing-mode
descriptor (30_encoding.md R114, R118), and the pair must be one that the list by mnemonic (R122) holds. The two
maps below follow R121 (the list by opcode byte); the check follows R122. -/

namespace Sys2Proof

/-- `index` of 30_encoding.md R114. -/
inductive Index where
  | none
  | x
  | y
  deriving DecidableEq, Repr

/-- The addressing modes that resolve to an address (40_addressing_modes.md R143 to R149). -/
inductive AddrMode where
  | zeroPage (b : Byte) (idx : Index)
  | absolute (w : Word) (idx : Index)
  | relative (b : Byte)
  | indirect (w : Word)
  | indexedIndirect (b : Byte)
  | indirectIndexed (b : Byte)
  deriving DecidableEq, Repr

/-- The addressing modes the resolver takes (40 R140): Immediate gives a value, the others an address. -/
inductive OperandMode where
  | immediate (b : Byte)
  | address (m : AddrMode)
  deriving DecidableEq, Repr

/-- The nine descriptors of 30_encoding.md R114: Implied and Accumulator, which the execution engine handles
directly (40 R150), and the seven the resolver takes. -/
inductive Mode where
  | implied
  | accumulator
  | operand (m : OperandMode)
  deriving DecidableEq, Repr

/-- The 56 mnemonics of 30_encoding.md R122 and HALT. -/
inductive Mnemonic where
  | lda | ldx | ldy | sta | stx | sty | tax | tay | txa | tya | tsx | txs
  | adc | sbc | and | ora | eor | bit | cmp | cpx | cpy | inc | dec | inx | iny | dex | dey
  | asl | lsr | rol | ror
  | bpl | bmi | bvc | bvs | bcc | bcs | bne | beq | jmp | jsr | rts
  | pha | pla | php | plp | clc | sec | cli | sei | clv | cld | sed | nop | brk | rti | halt
  deriving DecidableEq, Repr

/-- The mnemonic of an instruction (30_encoding.md R121, column mnemonic). -/
def Instr.mnemonic : Instr → Mnemonic
  | .ldaImm _ => .lda
  | .ldaZp _ => .lda
  | .ldaZpX _ => .lda
  | .ldaAbs _ => .lda
  | .ldaAbsX _ => .lda
  | .ldaAbsY _ => .lda
  | .ldaIndX _ => .lda
  | .ldaIndY _ => .lda
  | .ldxImm _ => .ldx
  | .ldxZp _ => .ldx
  | .ldxZpY _ => .ldx
  | .ldxAbs _ => .ldx
  | .ldxAbsY _ => .ldx
  | .ldyImm _ => .ldy
  | .ldyZp _ => .ldy
  | .ldyZpX _ => .ldy
  | .ldyAbs _ => .ldy
  | .ldyAbsX _ => .ldy
  | .staZp _ => .sta
  | .staZpX _ => .sta
  | .staAbs _ => .sta
  | .staAbsX _ => .sta
  | .staAbsY _ => .sta
  | .staIndX _ => .sta
  | .staIndY _ => .sta
  | .stxZp _ => .stx
  | .stxZpY _ => .stx
  | .stxAbs _ => .stx
  | .styZp _ => .sty
  | .styZpX _ => .sty
  | .styAbs _ => .sty
  | .tax => .tax
  | .tay => .tay
  | .txa => .txa
  | .tya => .tya
  | .tsx => .tsx
  | .txs => .txs
  | .adcImm _ => .adc
  | .adcZp _ => .adc
  | .adcZpX _ => .adc
  | .adcAbs _ => .adc
  | .adcAbsX _ => .adc
  | .adcAbsY _ => .adc
  | .adcIndX _ => .adc
  | .adcIndY _ => .adc
  | .sbcImm _ => .sbc
  | .sbcZp _ => .sbc
  | .sbcZpX _ => .sbc
  | .sbcAbs _ => .sbc
  | .sbcAbsX _ => .sbc
  | .sbcAbsY _ => .sbc
  | .sbcIndX _ => .sbc
  | .sbcIndY _ => .sbc
  | .andImm _ => .and
  | .andZp _ => .and
  | .andZpX _ => .and
  | .andAbs _ => .and
  | .andAbsX _ => .and
  | .andAbsY _ => .and
  | .andIndX _ => .and
  | .andIndY _ => .and
  | .oraImm _ => .ora
  | .oraZp _ => .ora
  | .oraZpX _ => .ora
  | .oraAbs _ => .ora
  | .oraAbsX _ => .ora
  | .oraAbsY _ => .ora
  | .oraIndX _ => .ora
  | .oraIndY _ => .ora
  | .eorImm _ => .eor
  | .eorZp _ => .eor
  | .eorZpX _ => .eor
  | .eorAbs _ => .eor
  | .eorAbsX _ => .eor
  | .eorAbsY _ => .eor
  | .eorIndX _ => .eor
  | .eorIndY _ => .eor
  | .bitZp _ => .bit
  | .bitAbs _ => .bit
  | .cmpImm _ => .cmp
  | .cmpZp _ => .cmp
  | .cmpZpX _ => .cmp
  | .cmpAbs _ => .cmp
  | .cmpAbsX _ => .cmp
  | .cmpAbsY _ => .cmp
  | .cmpIndX _ => .cmp
  | .cmpIndY _ => .cmp
  | .cpxImm _ => .cpx
  | .cpxZp _ => .cpx
  | .cpxAbs _ => .cpx
  | .cpyImm _ => .cpy
  | .cpyZp _ => .cpy
  | .cpyAbs _ => .cpy
  | .incZp _ => .inc
  | .incZpX _ => .inc
  | .incAbs _ => .inc
  | .incAbsX _ => .inc
  | .decZp _ => .dec
  | .decZpX _ => .dec
  | .decAbs _ => .dec
  | .decAbsX _ => .dec
  | .inx => .inx
  | .iny => .iny
  | .dex => .dex
  | .dey => .dey
  | .aslAcc => .asl
  | .aslZp _ => .asl
  | .aslZpX _ => .asl
  | .aslAbs _ => .asl
  | .aslAbsX _ => .asl
  | .lsrAcc => .lsr
  | .lsrZp _ => .lsr
  | .lsrZpX _ => .lsr
  | .lsrAbs _ => .lsr
  | .lsrAbsX _ => .lsr
  | .rolAcc => .rol
  | .rolZp _ => .rol
  | .rolZpX _ => .rol
  | .rolAbs _ => .rol
  | .rolAbsX _ => .rol
  | .rorAcc => .ror
  | .rorZp _ => .ror
  | .rorZpX _ => .ror
  | .rorAbs _ => .ror
  | .rorAbsX _ => .ror
  | .bpl _ => .bpl
  | .bmi _ => .bmi
  | .bvc _ => .bvc
  | .bvs _ => .bvs
  | .bcc _ => .bcc
  | .bcs _ => .bcs
  | .bne _ => .bne
  | .beq _ => .beq
  | .jmpAbs _ => .jmp
  | .jmpInd _ => .jmp
  | .jsr _ => .jsr
  | .rts => .rts
  | .pha => .pha
  | .pla => .pla
  | .php => .php
  | .plp => .plp
  | .clc => .clc
  | .sec => .sec
  | .cli => .cli
  | .sei => .sei
  | .clv => .clv
  | .cld => .cld
  | .sed => .sed
  | .nop => .nop
  | .brk => .brk
  | .rti => .rti
  | .halt => .halt

/-- The addressing-mode descriptor of an instruction (30_encoding.md R121, column mode constructor). -/
def Instr.mode : Instr → Mode
  | .ldaImm b => .operand (.immediate b)
  | .ldaZp b => .operand (.address (.zeroPage b .none))
  | .ldaZpX b => .operand (.address (.zeroPage b .x))
  | .ldaAbs w => .operand (.address (.absolute w .none))
  | .ldaAbsX w => .operand (.address (.absolute w .x))
  | .ldaAbsY w => .operand (.address (.absolute w .y))
  | .ldaIndX b => .operand (.address (.indexedIndirect b))
  | .ldaIndY b => .operand (.address (.indirectIndexed b))
  | .ldxImm b => .operand (.immediate b)
  | .ldxZp b => .operand (.address (.zeroPage b .none))
  | .ldxZpY b => .operand (.address (.zeroPage b .y))
  | .ldxAbs w => .operand (.address (.absolute w .none))
  | .ldxAbsY w => .operand (.address (.absolute w .y))
  | .ldyImm b => .operand (.immediate b)
  | .ldyZp b => .operand (.address (.zeroPage b .none))
  | .ldyZpX b => .operand (.address (.zeroPage b .x))
  | .ldyAbs w => .operand (.address (.absolute w .none))
  | .ldyAbsX w => .operand (.address (.absolute w .x))
  | .staZp b => .operand (.address (.zeroPage b .none))
  | .staZpX b => .operand (.address (.zeroPage b .x))
  | .staAbs w => .operand (.address (.absolute w .none))
  | .staAbsX w => .operand (.address (.absolute w .x))
  | .staAbsY w => .operand (.address (.absolute w .y))
  | .staIndX b => .operand (.address (.indexedIndirect b))
  | .staIndY b => .operand (.address (.indirectIndexed b))
  | .stxZp b => .operand (.address (.zeroPage b .none))
  | .stxZpY b => .operand (.address (.zeroPage b .y))
  | .stxAbs w => .operand (.address (.absolute w .none))
  | .styZp b => .operand (.address (.zeroPage b .none))
  | .styZpX b => .operand (.address (.zeroPage b .x))
  | .styAbs w => .operand (.address (.absolute w .none))
  | .tax => .implied
  | .tay => .implied
  | .txa => .implied
  | .tya => .implied
  | .tsx => .implied
  | .txs => .implied
  | .adcImm b => .operand (.immediate b)
  | .adcZp b => .operand (.address (.zeroPage b .none))
  | .adcZpX b => .operand (.address (.zeroPage b .x))
  | .adcAbs w => .operand (.address (.absolute w .none))
  | .adcAbsX w => .operand (.address (.absolute w .x))
  | .adcAbsY w => .operand (.address (.absolute w .y))
  | .adcIndX b => .operand (.address (.indexedIndirect b))
  | .adcIndY b => .operand (.address (.indirectIndexed b))
  | .sbcImm b => .operand (.immediate b)
  | .sbcZp b => .operand (.address (.zeroPage b .none))
  | .sbcZpX b => .operand (.address (.zeroPage b .x))
  | .sbcAbs w => .operand (.address (.absolute w .none))
  | .sbcAbsX w => .operand (.address (.absolute w .x))
  | .sbcAbsY w => .operand (.address (.absolute w .y))
  | .sbcIndX b => .operand (.address (.indexedIndirect b))
  | .sbcIndY b => .operand (.address (.indirectIndexed b))
  | .andImm b => .operand (.immediate b)
  | .andZp b => .operand (.address (.zeroPage b .none))
  | .andZpX b => .operand (.address (.zeroPage b .x))
  | .andAbs w => .operand (.address (.absolute w .none))
  | .andAbsX w => .operand (.address (.absolute w .x))
  | .andAbsY w => .operand (.address (.absolute w .y))
  | .andIndX b => .operand (.address (.indexedIndirect b))
  | .andIndY b => .operand (.address (.indirectIndexed b))
  | .oraImm b => .operand (.immediate b)
  | .oraZp b => .operand (.address (.zeroPage b .none))
  | .oraZpX b => .operand (.address (.zeroPage b .x))
  | .oraAbs w => .operand (.address (.absolute w .none))
  | .oraAbsX w => .operand (.address (.absolute w .x))
  | .oraAbsY w => .operand (.address (.absolute w .y))
  | .oraIndX b => .operand (.address (.indexedIndirect b))
  | .oraIndY b => .operand (.address (.indirectIndexed b))
  | .eorImm b => .operand (.immediate b)
  | .eorZp b => .operand (.address (.zeroPage b .none))
  | .eorZpX b => .operand (.address (.zeroPage b .x))
  | .eorAbs w => .operand (.address (.absolute w .none))
  | .eorAbsX w => .operand (.address (.absolute w .x))
  | .eorAbsY w => .operand (.address (.absolute w .y))
  | .eorIndX b => .operand (.address (.indexedIndirect b))
  | .eorIndY b => .operand (.address (.indirectIndexed b))
  | .bitZp b => .operand (.address (.zeroPage b .none))
  | .bitAbs w => .operand (.address (.absolute w .none))
  | .cmpImm b => .operand (.immediate b)
  | .cmpZp b => .operand (.address (.zeroPage b .none))
  | .cmpZpX b => .operand (.address (.zeroPage b .x))
  | .cmpAbs w => .operand (.address (.absolute w .none))
  | .cmpAbsX w => .operand (.address (.absolute w .x))
  | .cmpAbsY w => .operand (.address (.absolute w .y))
  | .cmpIndX b => .operand (.address (.indexedIndirect b))
  | .cmpIndY b => .operand (.address (.indirectIndexed b))
  | .cpxImm b => .operand (.immediate b)
  | .cpxZp b => .operand (.address (.zeroPage b .none))
  | .cpxAbs w => .operand (.address (.absolute w .none))
  | .cpyImm b => .operand (.immediate b)
  | .cpyZp b => .operand (.address (.zeroPage b .none))
  | .cpyAbs w => .operand (.address (.absolute w .none))
  | .incZp b => .operand (.address (.zeroPage b .none))
  | .incZpX b => .operand (.address (.zeroPage b .x))
  | .incAbs w => .operand (.address (.absolute w .none))
  | .incAbsX w => .operand (.address (.absolute w .x))
  | .decZp b => .operand (.address (.zeroPage b .none))
  | .decZpX b => .operand (.address (.zeroPage b .x))
  | .decAbs w => .operand (.address (.absolute w .none))
  | .decAbsX w => .operand (.address (.absolute w .x))
  | .inx => .implied
  | .iny => .implied
  | .dex => .implied
  | .dey => .implied
  | .aslAcc => .accumulator
  | .aslZp b => .operand (.address (.zeroPage b .none))
  | .aslZpX b => .operand (.address (.zeroPage b .x))
  | .aslAbs w => .operand (.address (.absolute w .none))
  | .aslAbsX w => .operand (.address (.absolute w .x))
  | .lsrAcc => .accumulator
  | .lsrZp b => .operand (.address (.zeroPage b .none))
  | .lsrZpX b => .operand (.address (.zeroPage b .x))
  | .lsrAbs w => .operand (.address (.absolute w .none))
  | .lsrAbsX w => .operand (.address (.absolute w .x))
  | .rolAcc => .accumulator
  | .rolZp b => .operand (.address (.zeroPage b .none))
  | .rolZpX b => .operand (.address (.zeroPage b .x))
  | .rolAbs w => .operand (.address (.absolute w .none))
  | .rolAbsX w => .operand (.address (.absolute w .x))
  | .rorAcc => .accumulator
  | .rorZp b => .operand (.address (.zeroPage b .none))
  | .rorZpX b => .operand (.address (.zeroPage b .x))
  | .rorAbs w => .operand (.address (.absolute w .none))
  | .rorAbsX w => .operand (.address (.absolute w .x))
  | .bpl b => .operand (.address (.relative b))
  | .bmi b => .operand (.address (.relative b))
  | .bvc b => .operand (.address (.relative b))
  | .bvs b => .operand (.address (.relative b))
  | .bcc b => .operand (.address (.relative b))
  | .bcs b => .operand (.address (.relative b))
  | .bne b => .operand (.address (.relative b))
  | .beq b => .operand (.address (.relative b))
  | .jmpAbs w => .operand (.address (.absolute w .none))
  | .jmpInd w => .operand (.address (.indirect w))
  | .jsr w => .operand (.address (.absolute w .none))
  | .rts => .implied
  | .pha => .implied
  | .pla => .implied
  | .php => .implied
  | .plp => .implied
  | .clc => .implied
  | .sec => .implied
  | .cli => .implied
  | .sei => .implied
  | .clv => .implied
  | .cld => .implied
  | .sed => .implied
  | .nop => .implied
  | .brk => .implied
  | .rti => .implied
  | .halt => .implied

/-- 30_encoding.md R122: the modes each mnemonic has an opcode for (40 R152). -/
def allows (mn : Mnemonic) (m : Mode) : Bool :=
  match mn with
  | .adc | .and | .cmp | .eor | .lda | .ora | .sbc =>
    match m with
    | .operand (.immediate _) => true
    | .operand (.address (.zeroPage _ idx)) => idx != .y
    | .operand (.address (.absolute _ _)) => true
    | .operand (.address (.indexedIndirect _)) => true
    | .operand (.address (.indirectIndexed _)) => true
    | _ => false
  | .sta =>
    match m with
    | .operand (.address (.zeroPage _ idx)) => idx != .y
    | .operand (.address (.absolute _ _)) => true
    | .operand (.address (.indexedIndirect _)) => true
    | .operand (.address (.indirectIndexed _)) => true
    | _ => false
  | .asl | .lsr | .rol | .ror =>
    match m with
    | .accumulator => true
    | .operand (.address (.zeroPage _ idx)) => idx != .y
    | .operand (.address (.absolute _ idx)) => idx != .y
    | _ => false
  | .inc | .dec =>
    match m with
    | .operand (.address (.zeroPage _ idx)) => idx != .y
    | .operand (.address (.absolute _ idx)) => idx != .y
    | _ => false
  | .ldx =>
    match m with
    | .operand (.immediate _) => true
    | .operand (.address (.zeroPage _ idx)) => idx != .x
    | .operand (.address (.absolute _ idx)) => idx != .x
    | _ => false
  | .ldy =>
    match m with
    | .operand (.immediate _) => true
    | .operand (.address (.zeroPage _ idx)) => idx != .y
    | .operand (.address (.absolute _ idx)) => idx != .y
    | _ => false
  | .cpx | .cpy =>
    match m with
    | .operand (.immediate _) => true
    | .operand (.address (.zeroPage _ idx)) => idx == .none
    | .operand (.address (.absolute _ idx)) => idx == .none
    | _ => false
  | .stx =>
    match m with
    | .operand (.address (.zeroPage _ idx)) => idx != .x
    | .operand (.address (.absolute _ idx)) => idx == .none
    | _ => false
  | .sty =>
    match m with
    | .operand (.address (.zeroPage _ idx)) => idx != .y
    | .operand (.address (.absolute _ idx)) => idx == .none
    | _ => false
  | .bit =>
    match m with
    | .operand (.address (.zeroPage _ idx)) => idx == .none
    | .operand (.address (.absolute _ idx)) => idx == .none
    | _ => false
  | .bpl | .bmi | .bvc | .bvs | .bcc | .bcs | .bne | .beq =>
    match m with
    | .operand (.address (.relative _)) => true
    | _ => false
  | .jmp =>
    match m with
    | .operand (.address (.absolute _ idx)) => idx == .none
    | .operand (.address (.indirect _)) => true
    | _ => false
  | .jsr =>
    match m with
    | .operand (.address (.absolute _ idx)) => idx == .none
    | _ => false
  | .tax | .tay | .txa | .tya | .tsx | .txs | .inx | .iny | .dex | .dey | .rts
  | .pha | .pla | .php | .plp | .clc | .sec | .cli | .sei | .clv | .cld | .sed | .nop
  | .brk | .rti | .halt => m == .implied

/-- An instruction is well formed when its mnemonic has its mode (R122). Every term of `Instr` is
(`Sys2Proof.Laws.Form`): a pair without an opcode has no constructor (40 R152). -/
def WellFormed (i : Instr) : Bool :=
  allows i.mnemonic i.mode

end Sys2Proof
end

