-- ==== Sys2Proof/Decode.lean ====
section
/-! DEFINITION. The decode unit (30_encoding.md): the opcode table, the decoder on any list of bytes, and the
encoder. The machine's own fetch (Machine/Fetch.lean) looks opcodes up in the same table. -/

namespace Sys2Proof

/-- The low byte of a word: the byte at the lower address (30 R113, 20 R78). -/
def loByte (w : Word) : Byte := w.setWidth 8

/-- The high byte of a word. -/
def hiByte (w : Word) : Byte := (w >>> 8).setWidth 8

/-- The concatenation of a high and a low byte, `hi * 256 + lo` (00 R9, 30 R113). -/
def wordOf (hi lo : Byte) : Word := hi ++ lo

/-- What the table holds for an opcode (30 R117): how many operand bytes follow, and the instruction they make. -/
inductive Entry where
  | noOperand (i : Instr)
  | byteOperand (f : Byte → Instr)
  | wordOperand (f : Word → Instr)

/-- `n` of 30 R117: the operand byte count. -/
def Entry.count : Entry → Nat
  | .noOperand _ => 0
  | .byteOperand _ => 1
  | .wordOperand _ => 2

/-- One row of the opcode map: all eight bits of the opcode are looked up at once (30 R111). -/
structure Row where
  opcode : Byte
  entry : Entry

/-- 30_encoding.md R121, bytes 00 to 0F. -/
def rows0 : List Row :=
  [⟨0x00, .byteOperand fun _ => .brk⟩,
   ⟨0x01, .byteOperand .oraIndX⟩,
   ⟨0x05, .byteOperand .oraZp⟩,
   ⟨0x06, .byteOperand .aslZp⟩,
   ⟨0x08, .noOperand .php⟩,
   ⟨0x09, .byteOperand .oraImm⟩,
   ⟨0x0A, .noOperand .aslAcc⟩,
   ⟨0x0D, .wordOperand .oraAbs⟩,
   ⟨0x0E, .wordOperand .aslAbs⟩]

/-- 30_encoding.md R121, bytes 10 to 1F. -/
def rows1 : List Row :=
  [⟨0x10, .byteOperand .bpl⟩,
   ⟨0x11, .byteOperand .oraIndY⟩,
   ⟨0x15, .byteOperand .oraZpX⟩,
   ⟨0x16, .byteOperand .aslZpX⟩,
   ⟨0x18, .noOperand .clc⟩,
   ⟨0x19, .wordOperand .oraAbsY⟩,
   ⟨0x1D, .wordOperand .oraAbsX⟩,
   ⟨0x1E, .wordOperand .aslAbsX⟩]

/-- 30_encoding.md R121, bytes 20 to 2F. -/
def rows2 : List Row :=
  [⟨0x20, .wordOperand .jsr⟩,
   ⟨0x21, .byteOperand .andIndX⟩,
   ⟨0x24, .byteOperand .bitZp⟩,
   ⟨0x25, .byteOperand .andZp⟩,
   ⟨0x26, .byteOperand .rolZp⟩,
   ⟨0x28, .noOperand .plp⟩,
   ⟨0x29, .byteOperand .andImm⟩,
   ⟨0x2A, .noOperand .rolAcc⟩,
   ⟨0x2C, .wordOperand .bitAbs⟩,
   ⟨0x2D, .wordOperand .andAbs⟩,
   ⟨0x2E, .wordOperand .rolAbs⟩]

/-- 30_encoding.md R121, bytes 30 to 3F. -/
def rows3 : List Row :=
  [⟨0x30, .byteOperand .bmi⟩,
   ⟨0x31, .byteOperand .andIndY⟩,
   ⟨0x35, .byteOperand .andZpX⟩,
   ⟨0x36, .byteOperand .rolZpX⟩,
   ⟨0x38, .noOperand .sec⟩,
   ⟨0x39, .wordOperand .andAbsY⟩,
   ⟨0x3D, .wordOperand .andAbsX⟩,
   ⟨0x3E, .wordOperand .rolAbsX⟩]

/-- 30_encoding.md R121, bytes 40 to 4F. -/
def rows4 : List Row :=
  [⟨0x40, .noOperand .rti⟩,
   ⟨0x41, .byteOperand .eorIndX⟩,
   ⟨0x45, .byteOperand .eorZp⟩,
   ⟨0x46, .byteOperand .lsrZp⟩,
   ⟨0x48, .noOperand .pha⟩,
   ⟨0x49, .byteOperand .eorImm⟩,
   ⟨0x4A, .noOperand .lsrAcc⟩,
   ⟨0x4C, .wordOperand .jmpAbs⟩,
   ⟨0x4D, .wordOperand .eorAbs⟩,
   ⟨0x4E, .wordOperand .lsrAbs⟩]

/-- 30_encoding.md R121, bytes 50 to 5F. -/
def rows5 : List Row :=
  [⟨0x50, .byteOperand .bvc⟩,
   ⟨0x51, .byteOperand .eorIndY⟩,
   ⟨0x55, .byteOperand .eorZpX⟩,
   ⟨0x56, .byteOperand .lsrZpX⟩,
   ⟨0x58, .noOperand .cli⟩,
   ⟨0x59, .wordOperand .eorAbsY⟩,
   ⟨0x5D, .wordOperand .eorAbsX⟩,
   ⟨0x5E, .wordOperand .lsrAbsX⟩]

/-- 30_encoding.md R121, bytes 60 to 6F. -/
def rows6 : List Row :=
  [⟨0x60, .noOperand .rts⟩,
   ⟨0x61, .byteOperand .adcIndX⟩,
   ⟨0x65, .byteOperand .adcZp⟩,
   ⟨0x66, .byteOperand .rorZp⟩,
   ⟨0x68, .noOperand .pla⟩,
   ⟨0x69, .byteOperand .adcImm⟩,
   ⟨0x6A, .noOperand .rorAcc⟩,
   ⟨0x6C, .wordOperand .jmpInd⟩,
   ⟨0x6D, .wordOperand .adcAbs⟩,
   ⟨0x6E, .wordOperand .rorAbs⟩]

/-- 30_encoding.md R121, bytes 70 to 7F. -/
def rows7 : List Row :=
  [⟨0x70, .byteOperand .bvs⟩,
   ⟨0x71, .byteOperand .adcIndY⟩,
   ⟨0x75, .byteOperand .adcZpX⟩,
   ⟨0x76, .byteOperand .rorZpX⟩,
   ⟨0x78, .noOperand .sei⟩,
   ⟨0x79, .wordOperand .adcAbsY⟩,
   ⟨0x7D, .wordOperand .adcAbsX⟩,
   ⟨0x7E, .wordOperand .rorAbsX⟩]

/-- 30_encoding.md R121, bytes 80 to 8F. -/
def rows8 : List Row :=
  [⟨0x81, .byteOperand .staIndX⟩,
   ⟨0x84, .byteOperand .styZp⟩,
   ⟨0x85, .byteOperand .staZp⟩,
   ⟨0x86, .byteOperand .stxZp⟩,
   ⟨0x88, .noOperand .dey⟩,
   ⟨0x8A, .noOperand .txa⟩,
   ⟨0x8C, .wordOperand .styAbs⟩,
   ⟨0x8D, .wordOperand .staAbs⟩,
   ⟨0x8E, .wordOperand .stxAbs⟩]

/-- 30_encoding.md R121, bytes 90 to 9F. -/
def rows9 : List Row :=
  [⟨0x90, .byteOperand .bcc⟩,
   ⟨0x91, .byteOperand .staIndY⟩,
   ⟨0x94, .byteOperand .styZpX⟩,
   ⟨0x95, .byteOperand .staZpX⟩,
   ⟨0x96, .byteOperand .stxZpY⟩,
   ⟨0x98, .noOperand .tya⟩,
   ⟨0x99, .wordOperand .staAbsY⟩,
   ⟨0x9A, .noOperand .txs⟩,
   ⟨0x9D, .wordOperand .staAbsX⟩]

/-- 30_encoding.md R121, bytes A0 to AF. -/
def rowsA : List Row :=
  [⟨0xA0, .byteOperand .ldyImm⟩,
   ⟨0xA1, .byteOperand .ldaIndX⟩,
   ⟨0xA2, .byteOperand .ldxImm⟩,
   ⟨0xA4, .byteOperand .ldyZp⟩,
   ⟨0xA5, .byteOperand .ldaZp⟩,
   ⟨0xA6, .byteOperand .ldxZp⟩,
   ⟨0xA8, .noOperand .tay⟩,
   ⟨0xA9, .byteOperand .ldaImm⟩,
   ⟨0xAA, .noOperand .tax⟩,
   ⟨0xAC, .wordOperand .ldyAbs⟩,
   ⟨0xAD, .wordOperand .ldaAbs⟩,
   ⟨0xAE, .wordOperand .ldxAbs⟩]

/-- 30_encoding.md R121, bytes B0 to BF. -/
def rowsB : List Row :=
  [⟨0xB0, .byteOperand .bcs⟩,
   ⟨0xB1, .byteOperand .ldaIndY⟩,
   ⟨0xB4, .byteOperand .ldyZpX⟩,
   ⟨0xB5, .byteOperand .ldaZpX⟩,
   ⟨0xB6, .byteOperand .ldxZpY⟩,
   ⟨0xB8, .noOperand .clv⟩,
   ⟨0xB9, .wordOperand .ldaAbsY⟩,
   ⟨0xBA, .noOperand .tsx⟩,
   ⟨0xBC, .wordOperand .ldyAbsX⟩,
   ⟨0xBD, .wordOperand .ldaAbsX⟩,
   ⟨0xBE, .wordOperand .ldxAbsY⟩]

/-- 30_encoding.md R121, bytes C0 to CF. -/
def rowsC : List Row :=
  [⟨0xC0, .byteOperand .cpyImm⟩,
   ⟨0xC1, .byteOperand .cmpIndX⟩,
   ⟨0xC4, .byteOperand .cpyZp⟩,
   ⟨0xC5, .byteOperand .cmpZp⟩,
   ⟨0xC6, .byteOperand .decZp⟩,
   ⟨0xC8, .noOperand .iny⟩,
   ⟨0xC9, .byteOperand .cmpImm⟩,
   ⟨0xCA, .noOperand .dex⟩,
   ⟨0xCC, .wordOperand .cpyAbs⟩,
   ⟨0xCD, .wordOperand .cmpAbs⟩,
   ⟨0xCE, .wordOperand .decAbs⟩]

/-- 30_encoding.md R121, bytes D0 to DF. -/
def rowsD : List Row :=
  [⟨0xD0, .byteOperand .bne⟩,
   ⟨0xD1, .byteOperand .cmpIndY⟩,
   ⟨0xD5, .byteOperand .cmpZpX⟩,
   ⟨0xD6, .byteOperand .decZpX⟩,
   ⟨0xD8, .noOperand .cld⟩,
   ⟨0xD9, .wordOperand .cmpAbsY⟩,
   ⟨0xDD, .wordOperand .cmpAbsX⟩,
   ⟨0xDE, .wordOperand .decAbsX⟩]

/-- 30_encoding.md R121, bytes E0 to EF. -/
def rowsE : List Row :=
  [⟨0xE0, .byteOperand .cpxImm⟩,
   ⟨0xE1, .byteOperand .sbcIndX⟩,
   ⟨0xE4, .byteOperand .cpxZp⟩,
   ⟨0xE5, .byteOperand .sbcZp⟩,
   ⟨0xE6, .byteOperand .incZp⟩,
   ⟨0xE8, .noOperand .inx⟩,
   ⟨0xE9, .byteOperand .sbcImm⟩,
   ⟨0xEA, .noOperand .nop⟩,
   ⟨0xEC, .wordOperand .cpxAbs⟩,
   ⟨0xED, .wordOperand .sbcAbs⟩,
   ⟨0xEE, .wordOperand .incAbs⟩]

/-- 30_encoding.md R121, bytes F0 to FF. -/
def rowsF : List Row :=
  [⟨0xF0, .byteOperand .beq⟩,
   ⟨0xF1, .byteOperand .sbcIndY⟩,
   ⟨0xF5, .byteOperand .sbcZpX⟩,
   ⟨0xF6, .byteOperand .incZpX⟩,
   ⟨0xF8, .noOperand .sed⟩,
   ⟨0xF9, .wordOperand .sbcAbsY⟩,
   ⟨0xFD, .wordOperand .sbcAbsX⟩,
   ⟨0xFE, .wordOperand .incAbsX⟩,
   ⟨0xFF, .noOperand .halt⟩]

/-- `TABLE` of 30_encoding.md R117: all 152 rows of R121. -/
def table : List Row :=
  rows0 ++ rows1 ++ rows2 ++ rows3 ++ rows4 ++ rows5 ++ rows6 ++ rows7 ++
  rows8 ++ rows9 ++ rowsA ++ rowsB ++ rowsC ++ rowsD ++ rowsE ++ rowsF

/-- The first row with this opcode. -/
def lookupIn : List Row → Byte → Option Entry
  | [], _ => none
  | r :: rs, op => if r.opcode == op then some r.entry else lookupIn rs op

/-- The table as the partial function of 30_encoding.md R117: `none` outside `IMPLEMENTED_SET`. -/
def lookup (op : Byte) : Option Entry :=
  lookupIn table op

/-- Why a list of bytes is no instruction (30 R118 to R120, R123). -/
inductive DecodeError where
  /-- no byte at all: a clean end of stream (R119) -/
  | endOfStream
  /-- the byte is not in the table (R123) -/
  | unknownOpcode (op : Byte)
  /-- the operand bytes the opcode asks for are not there (R120) -/
  | truncatedOperand (op : Byte)
  deriving DecidableEq, Repr

/-- Decode the first instruction of a list of bytes and give the rest of the list. The table is looked up before
any operand byte is asked for (30 R118, decision D26). -/
def decode : List Byte → Except DecodeError (Instr × List Byte)
  | [] => .error .endOfStream
  | op :: rest =>
    match lookup op with
    | none => .error (.unknownOpcode op)
    | some (.noOperand i) => .ok (i, rest)
    | some (.byteOperand f) =>
      match rest with
      | b :: rest => .ok (f b, rest)
      | [] => .error (.truncatedOperand op)
    | some (.wordOperand f) =>
      match rest with
      | lo :: hi :: rest => .ok (f (wordOf hi lo), rest)
      | _ => .error (.truncatedOperand op)

/-- How many operand bytes a mode has (30_encoding.md R110, R111); BRK's pad is counted by `Instr.operandCount`. -/
def Mode.operandCount : Mode → Nat
  | .implied => 0
  | .accumulator => 0
  | .operand (.immediate _) => 1
  | .operand (.address (.zeroPage _ _)) => 1
  | .operand (.address (.relative _)) => 1
  | .operand (.address (.indexedIndirect _)) => 1
  | .operand (.address (.indirectIndexed _)) => 1
  | .operand (.address (.absolute _ _)) => 2
  | .operand (.address (.indirect _)) => 2

/-- How many bytes follow an instruction's opcode: its mode's, and one pad byte for BRK (30 R116). -/
def Instr.operandCount (i : Instr) : Nat :=
  if i.mnemonic = .brk then 1 else i.mode.operandCount

/-- The bytes of an instruction, lowest address first (30_encoding.md R111, R113, R121). BRK's pad byte, which
has no effect, is written as 0 (R116). -/
def encode : Instr → List Byte
  | .ldaImm b => [0xA9, b]
  | .ldaZp b => [0xA5, b]
  | .ldaZpX b => [0xB5, b]
  | .ldaAbs w => [0xAD, loByte w, hiByte w]
  | .ldaAbsX w => [0xBD, loByte w, hiByte w]
  | .ldaAbsY w => [0xB9, loByte w, hiByte w]
  | .ldaIndX b => [0xA1, b]
  | .ldaIndY b => [0xB1, b]
  | .ldxImm b => [0xA2, b]
  | .ldxZp b => [0xA6, b]
  | .ldxZpY b => [0xB6, b]
  | .ldxAbs w => [0xAE, loByte w, hiByte w]
  | .ldxAbsY w => [0xBE, loByte w, hiByte w]
  | .ldyImm b => [0xA0, b]
  | .ldyZp b => [0xA4, b]
  | .ldyZpX b => [0xB4, b]
  | .ldyAbs w => [0xAC, loByte w, hiByte w]
  | .ldyAbsX w => [0xBC, loByte w, hiByte w]
  | .staZp b => [0x85, b]
  | .staZpX b => [0x95, b]
  | .staAbs w => [0x8D, loByte w, hiByte w]
  | .staAbsX w => [0x9D, loByte w, hiByte w]
  | .staAbsY w => [0x99, loByte w, hiByte w]
  | .staIndX b => [0x81, b]
  | .staIndY b => [0x91, b]
  | .stxZp b => [0x86, b]
  | .stxZpY b => [0x96, b]
  | .stxAbs w => [0x8E, loByte w, hiByte w]
  | .styZp b => [0x84, b]
  | .styZpX b => [0x94, b]
  | .styAbs w => [0x8C, loByte w, hiByte w]
  | .tax => [0xAA]
  | .tay => [0xA8]
  | .txa => [0x8A]
  | .tya => [0x98]
  | .tsx => [0xBA]
  | .txs => [0x9A]
  | .adcImm b => [0x69, b]
  | .adcZp b => [0x65, b]
  | .adcZpX b => [0x75, b]
  | .adcAbs w => [0x6D, loByte w, hiByte w]
  | .adcAbsX w => [0x7D, loByte w, hiByte w]
  | .adcAbsY w => [0x79, loByte w, hiByte w]
  | .adcIndX b => [0x61, b]
  | .adcIndY b => [0x71, b]
  | .sbcImm b => [0xE9, b]
  | .sbcZp b => [0xE5, b]
  | .sbcZpX b => [0xF5, b]
  | .sbcAbs w => [0xED, loByte w, hiByte w]
  | .sbcAbsX w => [0xFD, loByte w, hiByte w]
  | .sbcAbsY w => [0xF9, loByte w, hiByte w]
  | .sbcIndX b => [0xE1, b]
  | .sbcIndY b => [0xF1, b]
  | .andImm b => [0x29, b]
  | .andZp b => [0x25, b]
  | .andZpX b => [0x35, b]
  | .andAbs w => [0x2D, loByte w, hiByte w]
  | .andAbsX w => [0x3D, loByte w, hiByte w]
  | .andAbsY w => [0x39, loByte w, hiByte w]
  | .andIndX b => [0x21, b]
  | .andIndY b => [0x31, b]
  | .oraImm b => [0x09, b]
  | .oraZp b => [0x05, b]
  | .oraZpX b => [0x15, b]
  | .oraAbs w => [0x0D, loByte w, hiByte w]
  | .oraAbsX w => [0x1D, loByte w, hiByte w]
  | .oraAbsY w => [0x19, loByte w, hiByte w]
  | .oraIndX b => [0x01, b]
  | .oraIndY b => [0x11, b]
  | .eorImm b => [0x49, b]
  | .eorZp b => [0x45, b]
  | .eorZpX b => [0x55, b]
  | .eorAbs w => [0x4D, loByte w, hiByte w]
  | .eorAbsX w => [0x5D, loByte w, hiByte w]
  | .eorAbsY w => [0x59, loByte w, hiByte w]
  | .eorIndX b => [0x41, b]
  | .eorIndY b => [0x51, b]
  | .bitZp b => [0x24, b]
  | .bitAbs w => [0x2C, loByte w, hiByte w]
  | .cmpImm b => [0xC9, b]
  | .cmpZp b => [0xC5, b]
  | .cmpZpX b => [0xD5, b]
  | .cmpAbs w => [0xCD, loByte w, hiByte w]
  | .cmpAbsX w => [0xDD, loByte w, hiByte w]
  | .cmpAbsY w => [0xD9, loByte w, hiByte w]
  | .cmpIndX b => [0xC1, b]
  | .cmpIndY b => [0xD1, b]
  | .cpxImm b => [0xE0, b]
  | .cpxZp b => [0xE4, b]
  | .cpxAbs w => [0xEC, loByte w, hiByte w]
  | .cpyImm b => [0xC0, b]
  | .cpyZp b => [0xC4, b]
  | .cpyAbs w => [0xCC, loByte w, hiByte w]
  | .incZp b => [0xE6, b]
  | .incZpX b => [0xF6, b]
  | .incAbs w => [0xEE, loByte w, hiByte w]
  | .incAbsX w => [0xFE, loByte w, hiByte w]
  | .decZp b => [0xC6, b]
  | .decZpX b => [0xD6, b]
  | .decAbs w => [0xCE, loByte w, hiByte w]
  | .decAbsX w => [0xDE, loByte w, hiByte w]
  | .inx => [0xE8]
  | .iny => [0xC8]
  | .dex => [0xCA]
  | .dey => [0x88]
  | .aslAcc => [0x0A]
  | .aslZp b => [0x06, b]
  | .aslZpX b => [0x16, b]
  | .aslAbs w => [0x0E, loByte w, hiByte w]
  | .aslAbsX w => [0x1E, loByte w, hiByte w]
  | .lsrAcc => [0x4A]
  | .lsrZp b => [0x46, b]
  | .lsrZpX b => [0x56, b]
  | .lsrAbs w => [0x4E, loByte w, hiByte w]
  | .lsrAbsX w => [0x5E, loByte w, hiByte w]
  | .rolAcc => [0x2A]
  | .rolZp b => [0x26, b]
  | .rolZpX b => [0x36, b]
  | .rolAbs w => [0x2E, loByte w, hiByte w]
  | .rolAbsX w => [0x3E, loByte w, hiByte w]
  | .rorAcc => [0x6A]
  | .rorZp b => [0x66, b]
  | .rorZpX b => [0x76, b]
  | .rorAbs w => [0x6E, loByte w, hiByte w]
  | .rorAbsX w => [0x7E, loByte w, hiByte w]
  | .bpl b => [0x10, b]
  | .bmi b => [0x30, b]
  | .bvc b => [0x50, b]
  | .bvs b => [0x70, b]
  | .bcc b => [0x90, b]
  | .bcs b => [0xB0, b]
  | .bne b => [0xD0, b]
  | .beq b => [0xF0, b]
  | .jmpAbs w => [0x4C, loByte w, hiByte w]
  | .jmpInd w => [0x6C, loByte w, hiByte w]
  | .jsr w => [0x20, loByte w, hiByte w]
  | .rts => [0x60]
  | .pha => [0x48]
  | .pla => [0x68]
  | .php => [0x08]
  | .plp => [0x28]
  | .clc => [0x18]
  | .sec => [0x38]
  | .cli => [0x58]
  | .sei => [0x78]
  | .clv => [0xB8]
  | .cld => [0xD8]
  | .sed => [0xF8]
  | .nop => [0xEA]
  | .brk => [0x00, 0x00]
  | .rti => [0x40]
  | .halt => [0xFF]

/-- The first three bytes (the longest instruction) of a table word: bit 0 is the least significant bit of the
first byte, and every bit from `nbits` on is 0. -/
def tableWordBytes (nbits w : Nat) : List Byte :=
  let v := w % 2 ^ nbits
  [BitVec.ofNat 8 v, BitVec.ofNat 8 (v / 256), BitVec.ofNat 8 (v / 65536)]

/-- The instruction the decoder reads from a word of the opcode table. -/
def decodeTableWord (nbits w : Nat) : Option Instr :=
  match decode (tableWordBytes nbits w) with
  | .ok (i, _) => some i
  | .error _ => none

end Sys2Proof
end

