-- ==== Sys2Proof/Config.lean ====
section
/-! DEFINITION. What an implementation fixes and the spec leaves OPEN (00_scope.md R7), and the free values.
None of these constants has a body: a theorem about the machine holds for every admissible value.
The types carry the constraints of 00 R8. See log entries 5, 6 and 7. -/

namespace Sys2Proof.Config

/-- `IRQ_VECTOR` (00 R7, decision D8): the address of the low byte of BRK's target. OPEN; any address:
00 R8 puts no constraint on it (with the source's literal 0xFFFE every BRK faults at its vector read). -/
opaque irqVector : Word

/-- `DISPLAY_BASE` (00 R7, decision D9), OPEN; `Fin 1025` is the constraint
`DISPLAY_BASE + DISPLAY_SIZE <= MEM_SIZE` of 00 R8 (1024 + 1024 = 2048). -/
opaque displayBaseIndex : Fin 1025

/-- `DISPLAY_BASE` as an address. -/
def displayBase : Nat := displayBaseIndex.val

/-- `KEY_ADDR` (00 R7, decision D10), OPEN; `Fin 2048` is the constraint `KEY_ADDR < MEM_SIZE` of 00 R8. -/
opaque keyAddrIndex : Fin 2048

/-- `KEY_ADDR` as an address. -/
def keyAddr : Nat := keyAddrIndex.val

/-- `KEY_CODES` (00 R7, decision D10), OPEN: the four byte codes the input source may write. -/
opaque keyCode : Fin 4 → Byte

/-- FREE VALUE: the draws of the random source (20_memory.md R72), one for each value of the counter `drawCount`
of State. `Fin 15` is the range 1 .. 15 counted from 0: nothing else constrains a draw (decision D31). -/
opaque freeDraw : Nat → Fin 15

/-- FREE VALUE: the key code that the host writes in a host window, if any, for each window of an open-ended schedule
(46_sequencer.md R268 (a), R271; decision D23). Log entry 7. -/
opaque freeKey : Nat → Option (Fin 4)

/-- FREE VALUE: whether the host quits in a host window, for each window of an open-ended schedule (46 R268 (b), R271;
decision D23). Log entry 7. -/
opaque freeQuit : Nat → Bool

end Sys2Proof.Config
end

