-- ==== Sys2Proof/Machine/Params.lean ====
section
/-! DEFINITION. The parameters of spec 00_scope.md R7 that have a value. -/

namespace Sys2Proof.Machine

/-- `MEM_SIZE`, decision D1: valid addresses are `0 .. memSize - 1`. -/
def memSize : Nat := 2048

/-- The largest address the resolver can compute: `2 ^ ADDR_BITS - 1`, decision D2. -/
def addrMax : Nat := 0xFFFF

/-- `RANDOM_ADDR`, decision D3. -/
def randomAddr : Nat := 0x00FE

/-- `STACK_BASE`, decision D4: stack slot `s` is the cell at `stackBase + s`. -/
def stackBase : Nat := 0x0100

/-- `DISPLAY_SIZE`: 32 x 32 bytes. -/
def displaySize : Nat := 1024

/-- `PHP_OVERRIDE`, decision D7: the bits PHP ORs into the pushed flag byte. -/
def phpOverride : Byte := 0x10

/-- The override BRK passes to `PushFlags` (10 R49, 45 R249): BREAK forced set. -/
def brkOverride : Byte := 0x10

/-- `SP_POWER_ON`, decision D16. -/
def spPowerOn : Byte := 0xFF

/-- `SP_AFTER_RESET`, decision D17. -/
def spAfterReset : Byte := 0x00

/-- The draw with index `d`: `RANDOM_LO = 1 <= draw < RANDOM_HI = 16` (20 R72). -/
def drawByte (d : Fin 15) : Byte := BitVec.ofNat 8 (d.val + 1)

end Sys2Proof.Machine
end

