-- ==== Sys2Proof/Machine/State.lean ====
section
/-! DEFINITION. The state of the block (10_state.md R30), the faults and refusals, and the state after reset. -/

namespace Sys2Proof.Machine

open Sys2Proof

/-- The seven flags (10_state.md R39); each is an independent cell, there is no eighth. -/
structure Flags where
  /-- CARRY -/
  c : Bool
  /-- ZERO -/
  z : Bool
  /-- INTERRUPT_DISABLE; inert (60 R301) -/
  i : Bool
  /-- DECIMAL; inert (42 R197) -/
  d : Bool
  /-- BREAK; a stored flag, loaded by PLP and RTI (10 R50) -/
  b : Bool
  /-- OVERFLOW -/
  v : Bool
  /-- NEGATIVE -/
  n : Bool
  deriving DecidableEq, Repr

/-- The seven error kinds (60_exceptions.md R290), identified by name. -/
inductive ErrorKind where
  | outOfBounds
  | addressCalculation
  | unknownOpcode
  | truncatedOperand
  | stackOverflow
  | stackUnderflow
  | invalidTarget
  deriving DecidableEq, Repr

/-- The sequencer's status (46_sequencer.md R260). -/
inductive Status where
  /-- constructed or reset, not booted -/
  | idle
  /-- booted, ready to fetch the next instruction -/
  | running
  /-- a HALT was executed -/
  | stopped
  /-- the decoder found no byte at PC -/
  | ended
  /-- the host cleared `running` -/
  | quit
  /-- an error kind was raised -/
  | faulted (k : ErrorKind)
  deriving DecidableEq, Repr

/-- Memory cells by address, in one canonical form (`Memory.wf`); a cell that is not listed holds 0x00, what
power-on and `reset` leave in every cell (10 R56, R57). -/
abbrev Memory := List Host.Cell

/-- The canonical form: addresses strictly rising, no listed cell holds 0x00, every address below `size`
(an array of `size` cells, 10 R51, R59). -/
def Memory.wf (size : Nat) (m : Memory) : Bool :=
  decide (m.Pairwise fun c d => c.1 < d.1) && m.all fun c => c.2 != 0 && decide (c.1 < size)

/-- What the host does in one input poll (46 R268): write the key code with this index, or none; and clear
`running`, or not. -/
structure HostMove where
  key : Option (Fin 4)
  quit : Bool
  deriving DecidableEq, Repr

/-- How the host goes on when no listed move is left (46 R271: it is free in every window, and there may be infinitely
many). -/
inductive HostRest where
  /-- it does nothing in any window -/
  | silent
  /-- its moves are free: `Config.freeKey` and `Config.freeQuit` at this window, and at the next, and so on -/
  | free (window : Nat)
  deriving DecidableEq, Repr

/-- The state of 10_state.md R30, and four fields of the model's own (`draws`, `drawCount`, `host`, `hostRest`) that
carry the inputs of the step relation (00 R18): log entries 6 and 7. -/
structure State where
  /-- accumulator (R31) -/
  a : Byte
  /-- index register X (R32) -/
  x : Byte
  /-- index register Y (R33) -/
  y : Byte
  /-- stack pointer (R34) -/
  sp : Byte
  /-- program counter, an integer `0 .. memSize` (R35) -/
  pc : Nat
  /-- instruction-start counter, an integer `0 .. memSize` (R38) -/
  ispc : Nat
  /-- the flag set P (R39) -/
  p : Flags
  /-- memory (R51) -/
  mem : Memory
  /-- the "display changed" signal (R53) -/
  dirty : Bool
  /-- the run loop's flag (R54) -/
  running : Bool
  /-- the run status (R54, 46 R260) -/
  status : Status
  /-- the display-region snapshot buffer, by offset in the region (R52) -/
  snapshot : Memory
  /-- model's own: injected draws of the random source, next one first (20 R72) -/
  draws : List (Fin 15)
  /-- model's own: how many draws came from `Config.freeDraw` -/
  drawCount : Nat
  /-- model's own: the host's moves in the coming host windows, next one first -/
  host : List HostMove
  /-- model's own: the host's moves after those -/
  hostRest : HostRest
  deriving DecidableEq, Repr

/-- Why a run ends in an error: the seven kinds of 60_exceptions.md R290, each with its payload (R299) and the
machine at the fault (R298): every change made before the `raise`, and status `Faulted(kind)`. -/
inductive Fault where
  /-- Raised by `memRead` and `memWrite` for an address at or above `memSize` (60 R291). Safe: the spec's own. -/
  | outOfBounds (addr : Nat) (s : State)
  /-- Raised by the resolver's checked additions and the 16-bit read (60 R292). Safe: the spec's own. -/
  | addressCalculation (s : State)
  /-- Raised by `fetch` for an opcode byte outside the table (60 R293). Safe: the spec's own. -/
  | unknownOpcode (op : Byte) (s : State)
  /-- Raised by `fetch` when memory ends before the operand bytes (60 R294). Safe: the spec's own. -/
  | truncatedOperand (op : Byte) (s : State)
  /-- Raised by `push8` at SP = 0x00 (60 R295). Safe: the spec's own. -/
  | stackOverflow (s : State)
  /-- Raised by `pop8` at SP = 0xFF (60 R296). Safe: the spec's own. -/
  | stackUnderflow (s : State)
  /-- Raised by `goto` for a target at or above `memSize` (60 R297). Safe: the spec's own. -/
  | invalidTarget (t : Nat) (s : State)
  deriving DecidableEq, Repr

/-- The machine at the fault. -/
def Fault.state : Fault → State
  | .outOfBounds _ s => s
  | .addressCalculation s => s
  | .unknownOpcode _ s => s
  | .truncatedOperand _ s => s
  | .stackOverflow s => s
  | .stackUnderflow s => s
  | .invalidTarget _ s => s

/-- The error kind of a fault. -/
def Fault.kind : Fault → ErrorKind
  | .outOfBounds _ _ => .outOfBounds
  | .addressCalculation _ => .addressCalculation
  | .unknownOpcode _ _ => .unknownOpcode
  | .truncatedOperand _ _ => .truncatedOperand
  | .stackOverflow _ => .stackOverflow
  | .stackUnderflow _ => .stackUnderflow
  | .invalidTarget _ _ => .invalidTarget

/-- Why an instruction has no meaning here. No instruction of this model is refused. -/
inductive Refusal where
  /-- An instruction without a meaning yet, by its mnemonic. Raised by no arm of `exec`. Safe. -/
  | notModelled (mnemonic : String)
  deriving DecidableEq, Repr

/-- What a meaning answers. -/
abbrev Answer := Host.Outcome State Fault Refusal

/-- All seven flags 0. -/
def Flags.clear : Flags :=
  { c := false, z := false, i := false, d := false, b := false, v := false, n := false }

/-- The power-on state (10_state.md R56, decision D16). -/
def State.powerOn : State :=
  { a := 0, x := 0, y := 0, sp := spPowerOn, pc := 0, ispc := 0, p := Flags.clear, mem := [], dirty := false
    running := false, status := .idle, snapshot := [], draws := [], drawCount := 0, host := []
    hostRest := .silent }

/-- The machine right after the `reset` operation (10_state.md R57, decision D17) on a machine just constructed;
`reset` on any state is `hostReset` (Machine/HostOps.lean). Log entry 1. -/
def State.reset : State :=
  { a := 0, x := 0, y := 0, sp := spAfterReset, pc := 0, ispc := 0, p := Flags.clear, mem := [], dirty := false
    running := false, status := .idle, snapshot := [], draws := [], drawCount := 0, host := []
    hostRest := .silent }

/-! One update per field; every other operation is written with these. -/

def State.withA (s : State) (v : Byte) : State := { s with a := v }
def State.withX (s : State) (v : Byte) : State := { s with x := v }
def State.withY (s : State) (v : Byte) : State := { s with y := v }
def State.withSp (s : State) (v : Byte) : State := { s with sp := v }
def State.withPc (s : State) (v : Nat) : State := { s with pc := v }
def State.withIspc (s : State) (v : Nat) : State := { s with ispc := v }
def State.withP (s : State) (v : Flags) : State := { s with p := v }
def State.withMem (s : State) (v : Memory) : State := { s with mem := v }
def State.withDirty (s : State) (v : Bool) : State := { s with dirty := v }
def State.withRunning (s : State) (v : Bool) : State := { s with running := v }
def State.withStatus (s : State) (v : Status) : State := { s with status := v }
def State.withSnapshot (s : State) (v : Memory) : State := { s with snapshot := v }
def State.withDraws (s : State) (v : List (Fin 15)) : State := { s with draws := v }
def State.withDrawCount (s : State) (v : Nat) : State := { s with drawCount := v }
def State.withHost (s : State) (v : List HostMove) : State := { s with host := v }
def State.withHostRest (s : State) (v : HostRest) : State := { s with hostRest := v }

end Sys2Proof.Machine
end

