-- ==== Sys2Proof/Machine/Flags.lean ====
section
/-! DEFINITION. The flag byte (10_state.md R48) and the ALU's pure functions: results with their flags
(42_arith_logic.md, 43_shift_rotate.md). Nothing here touches the state. -/

namespace Sys2Proof.Machine

/-- A flag as the mask of its bit. -/
def maskOf (b : Bool) (mask : Byte) : Byte := if b then mask else 0

/-- `FlagsByte(P)`, 10 R48: N V (none) B D I Z C from bit 7 down; bit 5 is 0. -/
def flagsByte (p : Flags) : Byte :=
  maskOf p.n 0x80 + maskOf p.v 0x40 + maskOf p.b 0x10 + maskOf p.d 0x08 + maskOf p.i 0x04 + maskOf p.z 0x02 +
    maskOf p.c 0x01

/-- `FlagsFromByte(b)`, 10 R48: bit 5 is ignored. -/
def flagsFromByte (v : Byte) : Flags :=
  { n := v.getLsbD 7, v := v.getLsbD 6, b := v.getLsbD 4, d := v.getLsbD 3, i := v.getLsbD 2, z := v.getLsbD 1,
    c := v.getLsbD 0 }

/-- ZERO and NEGATIVE recomputed from a value, no other flag touched (10 R40). -/
def Flags.setZN (p : Flags) (v : Byte) : Flags :=
  { p with z := v == 0, n := v.getLsbD 7 }

/-- `Add8`, 42 R180: the wrapped sum and the carry-out. -/
def add8 (a b : Byte) : Byte × Bool :=
  (a + b, decide (255 < a.toNat + b.toNat))

/-- `Sub8`, 42 R180: the wrapped difference and the borrow-out. -/
def sub8 (a b : Byte) : Byte × Bool :=
  (a - b, decide (a.toNat < b.toNat))

/-- A flag as 0 or 1. -/
def bitByte (b : Bool) : Byte := if b then 1 else 0

/-- ADC's result and flags, 42 R181: two chained overflowing additions; always binary (R197). -/
def adcAlu (a v : Byte) (p : Flags) : Byte × Flags :=
  let t := add8 a v
  let r := add8 t.1 (bitByte p.c)
  let p1 := { p with
    c := t.2 || r.2
    v := r.1.getLsbD 7 != a.getLsbD 7 && r.1.getLsbD 7 != v.getLsbD 7 }
  (r.1, p1.setZN r.1)

/-- SBC's result and flags, 42 R182: two chained overflowing subtractions, the carry inverted (decision D13). -/
def sbcAlu (a v : Byte) (p : Flags) : Byte × Flags :=
  let t := sub8 a v
  let r := sub8 t.1 (bitByte (!p.c))
  let p1 := { p with
    c := !(t.2 || r.2)
    v := r.1.getLsbD 7 != a.getLsbD 7 && r.1.getLsbD 7 == v.getLsbD 7 }
  (r.1, p1.setZN r.1)

/-- `Compare(reg, v)`, 42 R187. -/
def compareFlags (reg v : Byte) (p : Flags) : Flags :=
  { p with c := decide (v.toNat ≤ reg.toNat), z := reg == v, n := (reg - v).getLsbD 7 }

/-- BIT's flags, 42 R186: Z from the AND, N and V from the operand's bits 7 and 6. -/
def bitFlags (a v : Byte) (p : Flags) : Flags :=
  { p with z := (a &&& v) == 0, n := v.getLsbD 7, v := v.getLsbD 6 }

/-- A shift or rotate by one bit, 43 R200: from a byte and the carry to the result and the bit shifted out. -/
abbrev ShiftFn := Byte → Bool → Byte × Bool

/-- `f_ASL`, 43 R201. -/
def aslFn : ShiftFn := fun v _ => (v <<< 1, v.getLsbD 7)

/-- `f_LSR`, 43 R202. -/
def lsrFn : ShiftFn := fun v _ => (v >>> 1, v.getLsbD 0)

/-- `f_ROL`, 43 R203: the old carry enters bit 0. -/
def rolFn : ShiftFn := fun v cin => ((v <<< 1) + bitByte cin, v.getLsbD 7)

/-- `f_ROR`, 43 R204: the old carry enters bit 7. -/
def rorFn : ShiftFn := fun v cin => ((v >>> 1) + maskOf cin 0x80, v.getLsbD 0)

/-- A shift's result and flags, 43 R200: C from the bit shifted out, Z and N from the result (decision D34). -/
def shiftAlu (f : ShiftFn) (v : Byte) (p : Flags) : Byte × Flags :=
  let r := f v p.c
  (r.1, { p with c := r.2 }.setZN r.1)

/-- INC's result and flags, 42 R191: C and V untouched. -/
def incAlu (v : Byte) (p : Flags) : Byte × Flags := (v + 1, p.setZN (v + 1))

/-- DEC's result and flags, 42 R192. -/
def decAlu (v : Byte) (p : Flags) : Byte × Flags := (v - 1, p.setZN (v - 1))

end Sys2Proof.Machine
end

