-- ==== Sys2Proof/Machine/Ops.lean ====
section
/-! DEFINITION. The named operations over memory and registers: cells, the bus (20_memory.md), the register and
stack helpers (10_state.md), taking the software interrupt and returning from it (60_exceptions.md R303, R305). -/

namespace Sys2Proof.Machine

/-! ## Cells -/

/-- The cell at an address, `mem[a]`: 0x00 where nothing is listed. -/
def cellAt : Memory → Nat → Byte
  | [], _ => 0
  | c :: m, a => if c.1 = a then c.2 else cellAt m a

/-- Put a cell before the first one with a larger address. -/
def insertCell (c : Host.Cell) : Memory → Memory
  | [] => [c]
  | d :: m => if c.1 < d.1 then c :: d :: m else d :: insertCell c m

/-- `mem[a] <- v`, in canonical form: the value an unlisted cell holds is not listed. -/
def setCell (m : Memory) (a : Nat) (v : Byte) : Memory :=
  let rest := m.filter fun c => c.1 != a
  if v = 0 then rest else insertCell (a, v) rest

/-- Write bytes to consecutive cells. -/
def setCells : Memory → Nat → List Byte → Memory
  | m, _, [] => m
  | m, a, v :: vs => setCells (setCell m a v) (a + 1) vs

/-! ## Faults (60 R298): the changes made so far stay, the status becomes `Faulted(kind)`, `running` stays. -/

def State.faulted (s : State) (k : ErrorKind) : State := s.withStatus (.faulted k)

def raiseOutOfBounds {α : Type} (addr : Nat) (s : State) : Except Fault α :=
  .error (.outOfBounds addr (s.faulted .outOfBounds))

def raiseAddressCalculation {α : Type} (s : State) : Except Fault α :=
  .error (.addressCalculation (s.faulted .addressCalculation))

def raiseUnknownOpcode {α : Type} (op : Byte) (s : State) : Except Fault α :=
  .error (.unknownOpcode op (s.faulted .unknownOpcode))

def raiseTruncatedOperand {α : Type} (op : Byte) (s : State) : Except Fault α :=
  .error (.truncatedOperand op (s.faulted .truncatedOperand))

def raiseStackOverflow {α : Type} (s : State) : Except Fault α :=
  .error (.stackOverflow (s.faulted .stackOverflow))

def raiseStackUnderflow {α : Type} (s : State) : Except Fault α :=
  .error (.stackUnderflow (s.faulted .stackUnderflow))

def raiseInvalidTarget {α : Type} (t : Nat) (s : State) : Except Fault α :=
  .error (.invalidTarget t (s.faulted .invalidTarget))

/-- What an instruction's body answers. -/
def finish : Except Fault State → Answer
  | .ok s => .next s
  | .error f => .fault f

/-! ## The bus -/

/-- `Draw()`, 20 R72: the next injected draw, or a fresh free value when none is left. Log entry 6. -/
def draw (s : State) : Byte × State :=
  match s.draws with
  | d :: ds => (drawByte d, s.withDraws ds)
  | [] => (drawByte (Config.freeDraw s.drawCount), s.withDrawCount (s.drawCount + 1))

/-- `MemRead(addr, 1)`, 20 R70: bounds check, then the random source, then the cell. -/
def memRead (a : Nat) (s : State) : Except Fault (Byte × State) :=
  if memSize ≤ a then raiseOutOfBounds a s
  else if a = randomAddr then .ok (draw s)
  else .ok (cellAt s.mem a, s)

/-- `MemRead(addr, 2)`, 20 R73: low byte first, then the overflow test, then the high byte; no page wrap. -/
def memRead16 (a : Nat) (s : State) : Except Fault (Word × State) := do
  let lo ← memRead a s
  if addrMax < a + 1 then raiseAddressCalculation lo.2
  else do
    let hi ← memRead (a + 1) lo.2
    .ok (wordOf hi.1 lo.1, hi.2)

/-- Whether an address lies in the display region (20 R71, R74). -/
def inDisplay (a : Nat) : Bool :=
  decide (Config.displayBase ≤ a) && decide (a < Config.displayBase + displaySize)

/-- The effect of a write that is in bounds, 20 R71: `dirty` is set when a display cell changes, and never
cleared; the comparison uses the raw cell. -/
def storeCell (a : Nat) (v : Byte) (s : State) : State :=
  (s.withDirty (s.dirty || (inDisplay a && cellAt s.mem a != v))).withMem (setCell s.mem a v)

/-- `MemWrite(addr, 1, v)`, 20 R71. A write to `RANDOM_ADDR` lands in the hidden cell (R75). -/
def memWrite (a : Nat) (v : Byte) (s : State) : Except Fault State :=
  if memSize ≤ a then raiseOutOfBounds a s else .ok (storeCell a v s)

/-! ## Registers and the two counters -/

/-- `SetA(v)`, 10 R40. -/
def setA (v : Byte) (s : State) : State := (s.withA v).withP (s.p.setZN v)

/-- `SetX(v)`, 10 R40. -/
def setX (v : Byte) (s : State) : State := (s.withX v).withP (s.p.setZN v)

/-- `SetY(v)`, 10 R40. -/
def setY (v : Byte) (s : State) : State := (s.withY v).withP (s.p.setZN v)

/-- `Advance()`, 10 R36. -/
def advance (s : State) : State := s.withIspc s.pc

/-- `Goto(t)`, 10 R37: when it raises, neither counter has changed (decision D21). -/
def goto (t : Nat) (s : State) : Except Fault State :=
  if memSize ≤ t then raiseInvalidTarget t s else .ok ((s.withPc t).withIspc t)

/-! ## The stack -/

/-- The address of a stack slot (10 R34). -/
def stackAddr (slot : Byte) : Nat := stackBase + slot.toNat

/-- `Push8(v)`, 10 R44: the slot SP names is written, then SP is decremented (decision D5). -/
def push8 (v : Byte) (s : State) : Except Fault State :=
  if s.sp = 0x00 then raiseStackOverflow s
  else do
    let s ← memWrite (stackAddr s.sp) v s
    .ok (s.withSp (s.sp - 1))

/-- `Pop8()`, 10 R45: SP is incremented, then the new slot is read. -/
def pop8 (s : State) : Except Fault (Byte × State) :=
  if s.sp = 0xFF then raiseStackUnderflow s
  else memRead (stackAddr (s.sp + 1)) (s.withSp (s.sp + 1))

/-- `Push16(w)`, 10 R46: high byte first. -/
def push16 (w : Word) (s : State) : Except Fault State := do
  let s ← push8 (hiByte w) s
  push8 (loByte w) s

/-- `Pop16()`, 10 R47: low byte first. -/
def pop16 (s : State) : Except Fault (Word × State) := do
  let lo ← pop8 s
  let hi ← pop8 lo.2
  .ok (wordOf hi.1 lo.1, hi.2)

/-- `PushFlags(override)`, 10 R49: the override is in the pushed copy only. -/
def pushFlags (override : Byte) (s : State) : Except Fault State :=
  push8 (flagsByte s.p ||| override) s

/-- `PopFlags()`, 10 R50: all seven flags, BREAK included; bit 5 is dropped. -/
def popFlags (s : State) : Except Fault State := do
  let b ← pop8 s
  .ok (b.2.withP (flagsFromByte (b.1 &&& 0xDF)))

/-- `PC` as the `u16` that JSR and BRK push (10 R35). -/
def pcWord (s : State) : Word := BitVec.ofNat 16 s.pc

/-! ## Taking the software interrupt, and returning -/

/-- Trap entry, 60 R303 (45 R249): push PC, push the flags with BREAK forced set in the pushed copy, set
INTERRUPT_DISABLE, read the vector, go there. -/
def takeInterrupt (s : State) : Except Fault State := do
  let s ← push16 (pcWord s) s
  let s ← pushFlags brkOverride s
  let t ← memRead16 Config.irqVector.toNat (s.withP { s.p with i := true })
  goto t.1.toNat t.2

/-- Trap return, 60 R305 (45 R250): pop the flags, pop PC, go there. -/
def returnFromInterrupt (s : State) : Except Fault State := do
  let s ← popFlags s
  let t ← pop16 s
  goto t.1.toNat t.2

end Sys2Proof.Machine
end

