-- ==== Sys2Proof/Machine/Operands.lean ====
section
/-! DEFINITION. The addressing-mode resolver (40_addressing_modes.md) and the shapes of instruction that use an
operand. -/

namespace Sys2Proof.Machine

/-- `CheckedAdd16`, 40 R142; `s` is the state kept if it raises. -/
def checkedAdd16 (a : Nat) (d : Byte) (s : State) : Except Fault (Nat × State) :=
  if addrMax < a + d.toNat then raiseAddressCalculation s else .ok (a + d.toNat, s)

/-- `CheckedAddSigned16`, 40 R145: below 0 or above 0xFFFF raises (decision D27). -/
def checkedAddSigned16 (a : Nat) (d : Byte) (s : State) : Except Fault (Nat × State) :=
  let t : Int := (a : Int) + d.toInt
  if t < 0 ∨ (addrMax : Int) < t then raiseAddressCalculation s else .ok (t.toNat, s)

/-- Base plus 0, X or Y (40 R143, R144): every offset is added as a full address, with no zero-page wrap. -/
def indexed (base : Nat) (idx : Index) (s : State) : Except Fault (Nat × State) :=
  match idx with
  | .none => .ok (base, s)
  | .x => checkedAdd16 base s.x s
  | .y => checkedAdd16 base s.y s

/-- `Resolve(m)` for the modes that give an address, 40 R143 to R149. It changes no register, flag or cell; the
pointer reads can consume draws (R140). The address is not checked against `memSize` here. -/
def resolveAddress (m : AddrMode) (s : State) : Except Fault (Nat × State) :=
  match m with
  | .zeroPage b idx => indexed b.toNat idx s
  | .absolute w idx => indexed w.toNat idx s
  | .relative b => checkedAddSigned16 s.ispc b s
  | .indirect w => do
    let t ← memRead16 w.toNat s
    .ok (t.1.toNat, t.2)
  | .indexedIndirect b => do
    let t ← memRead16 (b + s.x).toNat s
    .ok (t.1.toNat, t.2)
  | .indirectIndexed b => do
    let t ← memRead16 b.toNat s
    checkedAdd16 t.1.toNat s.y t.2

/-- `Operand`, 00_scope.md R15. -/
inductive Operand where
  | value (v : Byte)
  | address (a : Nat)
  deriving DecidableEq, Repr

/-- `Resolve(m)`, 40 R140, R141. -/
def resolve (m : OperandMode) (s : State) : Except Fault (Operand × State) :=
  match m with
  | .immediate b => .ok (.value b, s)
  | .address m => do
    let a ← resolveAddress m s
    .ok (.address a.1, a.2)

/-- `Load(o)`, 40 R151. -/
def load (o : Operand) (s : State) : Except Fault (Byte × State) :=
  match o with
  | .value v => .ok (v, s)
  | .address a => memRead a s

/-- `Load(Resolve(m))`: the operand byte, and the state after reading it. -/
def readOperand (m : OperandMode) (s : State) : Except Fault (Byte × State) := do
  let o ← resolve m s
  load o.1 o.2

/-! ## Instruction shapes -/

/-- Read the operand, let `f` use it, advance: loads, ADC to EOR, BIT, the compares. -/
def readThen (f : Byte → State → State) (m : OperandMode) (s : State) : Answer := finish do
  let v ← readOperand m s
  .ok (advance (f v.1 v.2))

/-- Resolve the address, write a byte there, advance: STA, STX, STY. -/
def storeThen (v : Byte) (m : AddrMode) (s : State) : Answer := finish do
  let a ← resolveAddress m s
  let s ← memWrite a.1 v a.2
  .ok (advance s)

/-- Read, modify and write the byte at the resolved address, then set the flags and advance: INC, DEC (42 R191,
R192) and the memory forms of the shifts (43 R200). -/
def modifyThen (f : Byte → Flags → Byte × Flags) (m : AddrMode) (s : State) : Answer := finish do
  let a ← resolveAddress m s
  let v ← memRead a.1 a.2
  let r := f v.1 v.2.p
  let s ← memWrite a.1 r.1 v.2
  .ok (advance (s.withP r.2))

/-- Change the registers, advance: the one-byte instructions that touch no memory. -/
def registerThen (f : State → State) (s : State) : Answer :=
  .next (advance (f s))

end Sys2Proof.Machine
end

