-- ==== Sys2Proof/Machine/Arith.lean ====
section
/-! DEFINITION. Arithmetic, logic, compare, increment and decrement instructions (42_arith_logic.md). -/

namespace Sys2Proof.Machine

/-- Write A and the flags with what the ALU gives; for ADC and SBC, whose Z and N are those of `SetA(r)`. -/
def aluToA (f : Byte → Byte → Flags → Byte × Flags) (v : Byte) (s : State) : State :=
  (s.withA (f s.a v s.p).1).withP (f s.a v s.p).2

/-- 42 R181. -/
def adc : OperandMode → State → Answer := readThen (aluToA adcAlu)

/-- 42 R182. -/
def sbc : OperandMode → State → Answer := readThen (aluToA sbcAlu)

/-- 42 R183. -/
def andA : OperandMode → State → Answer := readThen fun v s => setA (s.a &&& v) s

/-- 42 R184. -/
def ora : OperandMode → State → Answer := readThen fun v s => setA (s.a ||| v) s

/-- 42 R185. -/
def eor : OperandMode → State → Answer := readThen fun v s => setA (s.a ^^^ v) s

/-- 42 R186. -/
def bit : OperandMode → State → Answer := readThen fun v s => s.withP (bitFlags s.a v s.p)

/-- 42 R188. -/
def cmp : OperandMode → State → Answer := readThen fun v s => s.withP (compareFlags s.a v s.p)

/-- 42 R189. -/
def cpx : OperandMode → State → Answer := readThen fun v s => s.withP (compareFlags s.x v s.p)

/-- 42 R190. -/
def cpy : OperandMode → State → Answer := readThen fun v s => s.withP (compareFlags s.y v s.p)

/-- 42 R191. -/
def inc : AddrMode → State → Answer := modifyThen incAlu

/-- 42 R192. -/
def dec : AddrMode → State → Answer := modifyThen decAlu

/-- 42 R193. -/
def inx : State → Answer := registerThen fun s => setX (s.x + 1) s

/-- 42 R194. -/
def iny : State → Answer := registerThen fun s => setY (s.y + 1) s

/-- 42 R195. -/
def dex : State → Answer := registerThen fun s => setX (s.x - 1) s

/-- 42 R196. -/
def dey : State → Answer := registerThen fun s => setY (s.y - 1) s


/-- ADC #b (69), R181. -/
def execAdcImm (b : Byte) (s : State) : Answer := adc (.immediate b) s

/-- ADC $b (65), R181. -/
def execAdcZp (b : Byte) (s : State) : Answer := adc (.address (.zeroPage b .none)) s

/-- ADC $b,X (75), R181. -/
def execAdcZpX (b : Byte) (s : State) : Answer := adc (.address (.zeroPage b .x)) s

/-- ADC $w (6D), R181. -/
def execAdcAbs (w : Word) (s : State) : Answer := adc (.address (.absolute w .none)) s

/-- ADC $w,X (7D), R181. -/
def execAdcAbsX (w : Word) (s : State) : Answer := adc (.address (.absolute w .x)) s

/-- ADC $w,Y (79), R181. -/
def execAdcAbsY (w : Word) (s : State) : Answer := adc (.address (.absolute w .y)) s

/-- ADC ($b,X) (61), R181. -/
def execAdcIndX (b : Byte) (s : State) : Answer := adc (.address (.indexedIndirect b)) s

/-- ADC ($b),Y (71), R181. -/
def execAdcIndY (b : Byte) (s : State) : Answer := adc (.address (.indirectIndexed b)) s

/-- SBC #b (E9), R182. -/
def execSbcImm (b : Byte) (s : State) : Answer := sbc (.immediate b) s

/-- SBC $b (E5), R182. -/
def execSbcZp (b : Byte) (s : State) : Answer := sbc (.address (.zeroPage b .none)) s

/-- SBC $b,X (F5), R182. -/
def execSbcZpX (b : Byte) (s : State) : Answer := sbc (.address (.zeroPage b .x)) s

/-- SBC $w (ED), R182. -/
def execSbcAbs (w : Word) (s : State) : Answer := sbc (.address (.absolute w .none)) s

/-- SBC $w,X (FD), R182. -/
def execSbcAbsX (w : Word) (s : State) : Answer := sbc (.address (.absolute w .x)) s

/-- SBC $w,Y (F9), R182. -/
def execSbcAbsY (w : Word) (s : State) : Answer := sbc (.address (.absolute w .y)) s

/-- SBC ($b,X) (E1), R182. -/
def execSbcIndX (b : Byte) (s : State) : Answer := sbc (.address (.indexedIndirect b)) s

/-- SBC ($b),Y (F1), R182. -/
def execSbcIndY (b : Byte) (s : State) : Answer := sbc (.address (.indirectIndexed b)) s

/-- AND #b (29), R183. -/
def execAndImm (b : Byte) (s : State) : Answer := andA (.immediate b) s

/-- AND $b (25), R183. -/
def execAndZp (b : Byte) (s : State) : Answer := andA (.address (.zeroPage b .none)) s

/-- AND $b,X (35), R183. -/
def execAndZpX (b : Byte) (s : State) : Answer := andA (.address (.zeroPage b .x)) s

/-- AND $w (2D), R183. -/
def execAndAbs (w : Word) (s : State) : Answer := andA (.address (.absolute w .none)) s

/-- AND $w,X (3D), R183. -/
def execAndAbsX (w : Word) (s : State) : Answer := andA (.address (.absolute w .x)) s

/-- AND $w,Y (39), R183. -/
def execAndAbsY (w : Word) (s : State) : Answer := andA (.address (.absolute w .y)) s

/-- AND ($b,X) (21), R183. -/
def execAndIndX (b : Byte) (s : State) : Answer := andA (.address (.indexedIndirect b)) s

/-- AND ($b),Y (31), R183. -/
def execAndIndY (b : Byte) (s : State) : Answer := andA (.address (.indirectIndexed b)) s

/-- ORA #b (09), R184. -/
def execOraImm (b : Byte) (s : State) : Answer := ora (.immediate b) s

/-- ORA $b (05), R184. -/
def execOraZp (b : Byte) (s : State) : Answer := ora (.address (.zeroPage b .none)) s

/-- ORA $b,X (15), R184. -/
def execOraZpX (b : Byte) (s : State) : Answer := ora (.address (.zeroPage b .x)) s

/-- ORA $w (0D), R184. -/
def execOraAbs (w : Word) (s : State) : Answer := ora (.address (.absolute w .none)) s

/-- ORA $w,X (1D), R184. -/
def execOraAbsX (w : Word) (s : State) : Answer := ora (.address (.absolute w .x)) s

/-- ORA $w,Y (19), R184. -/
def execOraAbsY (w : Word) (s : State) : Answer := ora (.address (.absolute w .y)) s

/-- ORA ($b,X) (01), R184. -/
def execOraIndX (b : Byte) (s : State) : Answer := ora (.address (.indexedIndirect b)) s

/-- ORA ($b),Y (11), R184. -/
def execOraIndY (b : Byte) (s : State) : Answer := ora (.address (.indirectIndexed b)) s

/-- EOR #b (49), R185. -/
def execEorImm (b : Byte) (s : State) : Answer := eor (.immediate b) s

/-- EOR $b (45), R185. -/
def execEorZp (b : Byte) (s : State) : Answer := eor (.address (.zeroPage b .none)) s

/-- EOR $b,X (55), R185. -/
def execEorZpX (b : Byte) (s : State) : Answer := eor (.address (.zeroPage b .x)) s

/-- EOR $w (4D), R185. -/
def execEorAbs (w : Word) (s : State) : Answer := eor (.address (.absolute w .none)) s

/-- EOR $w,X (5D), R185. -/
def execEorAbsX (w : Word) (s : State) : Answer := eor (.address (.absolute w .x)) s

/-- EOR $w,Y (59), R185. -/
def execEorAbsY (w : Word) (s : State) : Answer := eor (.address (.absolute w .y)) s

/-- EOR ($b,X) (41), R185. -/
def execEorIndX (b : Byte) (s : State) : Answer := eor (.address (.indexedIndirect b)) s

/-- EOR ($b),Y (51), R185. -/
def execEorIndY (b : Byte) (s : State) : Answer := eor (.address (.indirectIndexed b)) s

/-- BIT $b (24), R186. -/
def execBitZp (b : Byte) (s : State) : Answer := bit (.address (.zeroPage b .none)) s

/-- BIT $w (2C), R186. -/
def execBitAbs (w : Word) (s : State) : Answer := bit (.address (.absolute w .none)) s

/-- CMP #b (C9), R188. -/
def execCmpImm (b : Byte) (s : State) : Answer := cmp (.immediate b) s

/-- CMP $b (C5), R188. -/
def execCmpZp (b : Byte) (s : State) : Answer := cmp (.address (.zeroPage b .none)) s

/-- CMP $b,X (D5), R188. -/
def execCmpZpX (b : Byte) (s : State) : Answer := cmp (.address (.zeroPage b .x)) s

/-- CMP $w (CD), R188. -/
def execCmpAbs (w : Word) (s : State) : Answer := cmp (.address (.absolute w .none)) s

/-- CMP $w,X (DD), R188. -/
def execCmpAbsX (w : Word) (s : State) : Answer := cmp (.address (.absolute w .x)) s

/-- CMP $w,Y (D9), R188. -/
def execCmpAbsY (w : Word) (s : State) : Answer := cmp (.address (.absolute w .y)) s

/-- CMP ($b,X) (C1), R188. -/
def execCmpIndX (b : Byte) (s : State) : Answer := cmp (.address (.indexedIndirect b)) s

/-- CMP ($b),Y (D1), R188. -/
def execCmpIndY (b : Byte) (s : State) : Answer := cmp (.address (.indirectIndexed b)) s

/-- CPX #b (E0), R189. -/
def execCpxImm (b : Byte) (s : State) : Answer := cpx (.immediate b) s

/-- CPX $b (E4), R189. -/
def execCpxZp (b : Byte) (s : State) : Answer := cpx (.address (.zeroPage b .none)) s

/-- CPX $w (EC), R189. -/
def execCpxAbs (w : Word) (s : State) : Answer := cpx (.address (.absolute w .none)) s

/-- CPY #b (C0), R190. -/
def execCpyImm (b : Byte) (s : State) : Answer := cpy (.immediate b) s

/-- CPY $b (C4), R190. -/
def execCpyZp (b : Byte) (s : State) : Answer := cpy (.address (.zeroPage b .none)) s

/-- CPY $w (CC), R190. -/
def execCpyAbs (w : Word) (s : State) : Answer := cpy (.address (.absolute w .none)) s

/-- INC $b (E6), R191. -/
def execIncZp (b : Byte) (s : State) : Answer := inc (.zeroPage b .none) s

/-- INC $b,X (F6), R191. -/
def execIncZpX (b : Byte) (s : State) : Answer := inc (.zeroPage b .x) s

/-- INC $w (EE), R191. -/
def execIncAbs (w : Word) (s : State) : Answer := inc (.absolute w .none) s

/-- INC $w,X (FE), R191. -/
def execIncAbsX (w : Word) (s : State) : Answer := inc (.absolute w .x) s

/-- DEC $b (C6), R192. -/
def execDecZp (b : Byte) (s : State) : Answer := dec (.zeroPage b .none) s

/-- DEC $b,X (D6), R192. -/
def execDecZpX (b : Byte) (s : State) : Answer := dec (.zeroPage b .x) s

/-- DEC $w (CE), R192. -/
def execDecAbs (w : Word) (s : State) : Answer := dec (.absolute w .none) s

/-- DEC $w,X (DE), R192. -/
def execDecAbsX (w : Word) (s : State) : Answer := dec (.absolute w .x) s

/-- INX (E8), R193. -/
def execInx (s : State) : Answer := inx s

/-- INY (C8), R194. -/
def execIny (s : State) : Answer := iny s

/-- DEX (CA), R195. -/
def execDex (s : State) : Answer := dex s

/-- DEY (88), R196. -/
def execDey (s : State) : Answer := dey s

end Sys2Proof.Machine
end

