-- ==== Sys2Proof/Machine/Control.lean ====
section
/-! DEFINITION. Branches, jump, call and return (44_control_transfer.md). -/

namespace Sys2Proof.Machine

/-- Resolve the address, go there. -/
def jumpTo (m : AddrMode) (s : State) : Except Fault State := do
  let t ← resolveAddress m s
  goto t.1 t.2

/-- 44 R210: the relative address is resolved only when the branch is taken (decision D14). -/
def branch (cond : Bool) (b : Byte) (s : State) : Answer :=
  if cond then finish (jumpTo (.relative b) s) else .next (advance s)

/-- 44 R211. -/
def bpl (b : Byte) (s : State) : Answer := branch (!s.p.n) b s

/-- 44 R212. -/
def bmi (b : Byte) (s : State) : Answer := branch s.p.n b s

/-- 44 R213. -/
def bvc (b : Byte) (s : State) : Answer := branch (!s.p.v) b s

/-- 44 R214. -/
def bvs (b : Byte) (s : State) : Answer := branch s.p.v b s

/-- 44 R215. -/
def bcc (b : Byte) (s : State) : Answer := branch (!s.p.c) b s

/-- 44 R216. -/
def bcs (b : Byte) (s : State) : Answer := branch s.p.c b s

/-- 44 R217. -/
def bne (b : Byte) (s : State) : Answer := branch (!s.p.z) b s

/-- 44 R218. -/
def beq (b : Byte) (s : State) : Answer := branch s.p.z b s

/-- 44 R219. -/
def jmp (m : AddrMode) (s : State) : Answer := finish (jumpTo m s)

/-- 44 R220: the pushed address is that of the next instruction (decision D15). -/
def jsr (w : Word) (s : State) : Answer := finish do
  let t ← resolveAddress (.absolute w .none) s
  let s ← push16 (pcWord t.2) t.2
  goto t.1 s

/-- 44 R221: nothing is added to the popped address. -/
def rts (s : State) : Answer := finish do
  let t ← pop16 s
  goto t.1.toNat t.2


/-- BPL b (10), R211. -/
def execBpl (b : Byte) (s : State) : Answer := bpl b s

/-- BMI b (30), R212. -/
def execBmi (b : Byte) (s : State) : Answer := bmi b s

/-- BVC b (50), R213. -/
def execBvc (b : Byte) (s : State) : Answer := bvc b s

/-- BVS b (70), R214. -/
def execBvs (b : Byte) (s : State) : Answer := bvs b s

/-- BCC b (90), R215. -/
def execBcc (b : Byte) (s : State) : Answer := bcc b s

/-- BCS b (B0), R216. -/
def execBcs (b : Byte) (s : State) : Answer := bcs b s

/-- BNE b (D0), R217. -/
def execBne (b : Byte) (s : State) : Answer := bne b s

/-- BEQ b (F0), R218. -/
def execBeq (b : Byte) (s : State) : Answer := beq b s

/-- JMP $w (4C), R219. -/
def execJmpAbs (w : Word) (s : State) : Answer := jmp (.absolute w .none) s

/-- JMP ($w) (6C), R219. -/
def execJmpInd (w : Word) (s : State) : Answer := jmp (.indirect w) s

/-- JSR $w (20), R220. -/
def execJsr (w : Word) (s : State) : Answer := jsr w s

/-- RTS (60), R221. -/
def execRts (s : State) : Answer := rts s

end Sys2Proof.Machine
end

