-- ==== Sys2Proof/Machine/LoadStore.lean ====
section
/-! DEFINITION. Load, store and register-transfer instructions (41_load_store_transfer.md). -/

namespace Sys2Proof.Machine

/-- 41 R160. -/
def lda : OperandMode → State → Answer := readThen setA

/-- 41 R161. -/
def ldx : OperandMode → State → Answer := readThen setX

/-- 41 R162. -/
def ldy : OperandMode → State → Answer := readThen setY

/-- 41 R163: no flag is written. -/
def sta (m : AddrMode) (s : State) : Answer := storeThen s.a m s

/-- 41 R164. -/
def stx (m : AddrMode) (s : State) : Answer := storeThen s.x m s

/-- 41 R165. -/
def sty (m : AddrMode) (s : State) : Answer := storeThen s.y m s

/-- 41 R166. -/
def tax : State → Answer := registerThen fun s => setX s.a s

/-- 41 R167. -/
def tay : State → Answer := registerThen fun s => setY s.a s

/-- 41 R168. -/
def txa : State → Answer := registerThen fun s => setA s.x s

/-- 41 R169. -/
def tya : State → Answer := registerThen fun s => setA s.y s

/-- 41 R170. -/
def tsx : State → Answer := registerThen fun s => setX s.sp s

/-- 41 R171: SP is written and no flag (decision D36). -/
def txs : State → Answer := registerThen fun s => s.withSp s.x


/-- LDA #b (A9), R160. -/
def execLdaImm (b : Byte) (s : State) : Answer := lda (.immediate b) s

/-- LDA $b (A5), R160. -/
def execLdaZp (b : Byte) (s : State) : Answer := lda (.address (.zeroPage b .none)) s

/-- LDA $b,X (B5), R160. -/
def execLdaZpX (b : Byte) (s : State) : Answer := lda (.address (.zeroPage b .x)) s

/-- LDA $w (AD), R160. -/
def execLdaAbs (w : Word) (s : State) : Answer := lda (.address (.absolute w .none)) s

/-- LDA $w,X (BD), R160. -/
def execLdaAbsX (w : Word) (s : State) : Answer := lda (.address (.absolute w .x)) s

/-- LDA $w,Y (B9), R160. -/
def execLdaAbsY (w : Word) (s : State) : Answer := lda (.address (.absolute w .y)) s

/-- LDA ($b,X) (A1), R160. -/
def execLdaIndX (b : Byte) (s : State) : Answer := lda (.address (.indexedIndirect b)) s

/-- LDA ($b),Y (B1), R160. -/
def execLdaIndY (b : Byte) (s : State) : Answer := lda (.address (.indirectIndexed b)) s

/-- LDX #b (A2), R161. -/
def execLdxImm (b : Byte) (s : State) : Answer := ldx (.immediate b) s

/-- LDX $b (A6), R161. -/
def execLdxZp (b : Byte) (s : State) : Answer := ldx (.address (.zeroPage b .none)) s

/-- LDX $b,Y (B6), R161. -/
def execLdxZpY (b : Byte) (s : State) : Answer := ldx (.address (.zeroPage b .y)) s

/-- LDX $w (AE), R161. -/
def execLdxAbs (w : Word) (s : State) : Answer := ldx (.address (.absolute w .none)) s

/-- LDX $w,Y (BE), R161. -/
def execLdxAbsY (w : Word) (s : State) : Answer := ldx (.address (.absolute w .y)) s

/-- LDY #b (A0), R162. -/
def execLdyImm (b : Byte) (s : State) : Answer := ldy (.immediate b) s

/-- LDY $b (A4), R162. -/
def execLdyZp (b : Byte) (s : State) : Answer := ldy (.address (.zeroPage b .none)) s

/-- LDY $b,X (B4), R162. -/
def execLdyZpX (b : Byte) (s : State) : Answer := ldy (.address (.zeroPage b .x)) s

/-- LDY $w (AC), R162. -/
def execLdyAbs (w : Word) (s : State) : Answer := ldy (.address (.absolute w .none)) s

/-- LDY $w,X (BC), R162. -/
def execLdyAbsX (w : Word) (s : State) : Answer := ldy (.address (.absolute w .x)) s

/-- STA $b (85), R163. -/
def execStaZp (b : Byte) (s : State) : Answer := sta (.zeroPage b .none) s

/-- STA $b,X (95), R163. -/
def execStaZpX (b : Byte) (s : State) : Answer := sta (.zeroPage b .x) s

/-- STA $w (8D), R163. -/
def execStaAbs (w : Word) (s : State) : Answer := sta (.absolute w .none) s

/-- STA $w,X (9D), R163. -/
def execStaAbsX (w : Word) (s : State) : Answer := sta (.absolute w .x) s

/-- STA $w,Y (99), R163. -/
def execStaAbsY (w : Word) (s : State) : Answer := sta (.absolute w .y) s

/-- STA ($b,X) (81), R163. -/
def execStaIndX (b : Byte) (s : State) : Answer := sta (.indexedIndirect b) s

/-- STA ($b),Y (91), R163. -/
def execStaIndY (b : Byte) (s : State) : Answer := sta (.indirectIndexed b) s

/-- STX $b (86), R164. -/
def execStxZp (b : Byte) (s : State) : Answer := stx (.zeroPage b .none) s

/-- STX $b,Y (96), R164. -/
def execStxZpY (b : Byte) (s : State) : Answer := stx (.zeroPage b .y) s

/-- STX $w (8E), R164. -/
def execStxAbs (w : Word) (s : State) : Answer := stx (.absolute w .none) s

/-- STY $b (84), R165. -/
def execStyZp (b : Byte) (s : State) : Answer := sty (.zeroPage b .none) s

/-- STY $b,X (94), R165. -/
def execStyZpX (b : Byte) (s : State) : Answer := sty (.zeroPage b .x) s

/-- STY $w (8C), R165. -/
def execStyAbs (w : Word) (s : State) : Answer := sty (.absolute w .none) s

/-- TAX (AA), R166. -/
def execTax (s : State) : Answer := tax s

/-- TAY (A8), R167. -/
def execTay (s : State) : Answer := tay s

/-- TXA (8A), R168. -/
def execTxa (s : State) : Answer := txa s

/-- TYA (98), R169. -/
def execTya (s : State) : Answer := tya s

/-- TSX (BA), R170. -/
def execTsx (s : State) : Answer := tsx s

/-- TXS (9A), R171. -/
def execTxs (s : State) : Answer := txs s

end Sys2Proof.Machine
end

