-- ==== Sys2Proof/Machine/Shift.lean ====
section
/-! DEFINITION. Shift and rotate instructions (43_shift_rotate.md). -/

namespace Sys2Proof.Machine

/-- The Accumulator form of 43 R200. -/
def shiftAcc (f : ShiftFn) : State → Answer :=
  registerThen fun s => (s.withA (shiftAlu f s.a s.p).1).withP (shiftAlu f s.a s.p).2

/-- The memory form of 43 R200. -/
def shiftMem (f : ShiftFn) : AddrMode → State → Answer := modifyThen (shiftAlu f)

/-- 43 R201. -/
def aslAcc : State → Answer := shiftAcc aslFn

/-- 43 R201. -/
def aslMem : AddrMode → State → Answer := shiftMem aslFn

/-- 43 R202. -/
def lsrAcc : State → Answer := shiftAcc lsrFn

/-- 43 R202. -/
def lsrMem : AddrMode → State → Answer := shiftMem lsrFn

/-- 43 R203. -/
def rolAcc : State → Answer := shiftAcc rolFn

/-- 43 R203. -/
def rolMem : AddrMode → State → Answer := shiftMem rolFn

/-- 43 R204. -/
def rorAcc : State → Answer := shiftAcc rorFn

/-- 43 R204. -/
def rorMem : AddrMode → State → Answer := shiftMem rorFn


/-- ASL A (0A), R201. -/
def execAslAcc (s : State) : Answer := aslAcc s

/-- ASL $b (06), R201. -/
def execAslZp (b : Byte) (s : State) : Answer := aslMem (.zeroPage b .none) s

/-- ASL $b,X (16), R201. -/
def execAslZpX (b : Byte) (s : State) : Answer := aslMem (.zeroPage b .x) s

/-- ASL $w (0E), R201. -/
def execAslAbs (w : Word) (s : State) : Answer := aslMem (.absolute w .none) s

/-- ASL $w,X (1E), R201. -/
def execAslAbsX (w : Word) (s : State) : Answer := aslMem (.absolute w .x) s

/-- LSR A (4A), R202. -/
def execLsrAcc (s : State) : Answer := lsrAcc s

/-- LSR $b (46), R202. -/
def execLsrZp (b : Byte) (s : State) : Answer := lsrMem (.zeroPage b .none) s

/-- LSR $b,X (56), R202. -/
def execLsrZpX (b : Byte) (s : State) : Answer := lsrMem (.zeroPage b .x) s

/-- LSR $w (4E), R202. -/
def execLsrAbs (w : Word) (s : State) : Answer := lsrMem (.absolute w .none) s

/-- LSR $w,X (5E), R202. -/
def execLsrAbsX (w : Word) (s : State) : Answer := lsrMem (.absolute w .x) s

/-- ROL A (2A), R203. -/
def execRolAcc (s : State) : Answer := rolAcc s

/-- ROL $b (26), R203. -/
def execRolZp (b : Byte) (s : State) : Answer := rolMem (.zeroPage b .none) s

/-- ROL $b,X (36), R203. -/
def execRolZpX (b : Byte) (s : State) : Answer := rolMem (.zeroPage b .x) s

/-- ROL $w (2E), R203. -/
def execRolAbs (w : Word) (s : State) : Answer := rolMem (.absolute w .none) s

/-- ROL $w,X (3E), R203. -/
def execRolAbsX (w : Word) (s : State) : Answer := rolMem (.absolute w .x) s

/-- ROR A (6A), R204. -/
def execRorAcc (s : State) : Answer := rorAcc s

/-- ROR $b (66), R204. -/
def execRorZp (b : Byte) (s : State) : Answer := rorMem (.zeroPage b .none) s

/-- ROR $b,X (76), R204. -/
def execRorZpX (b : Byte) (s : State) : Answer := rorMem (.zeroPage b .x) s

/-- ROR $w (6E), R204. -/
def execRorAbs (w : Word) (s : State) : Answer := rorMem (.absolute w .none) s

/-- ROR $w,X (7E), R204. -/
def execRorAbsX (w : Word) (s : State) : Answer := rorMem (.absolute w .x) s

end Sys2Proof.Machine
end

