-- ==== Sys2Proof/Machine/StackFlag.lean ====
section
/-! DEFINITION. Stack, flag, no-operation and system instructions (45_stack_flag_system.md). -/

namespace Sys2Proof.Machine

/-- 45 R230. -/
def pha (s : State) : Answer := finish do
  let s ← push8 s.a s
  .ok (advance s)

/-- 45 R231. -/
def pla (s : State) : Answer := finish do
  let v ← pop8 s
  .ok (advance (setA v.1 v.2))

/-- 45 R232. -/
def php (s : State) : Answer := finish do
  let s ← pushFlags phpOverride s
  .ok (advance s)

/-- 45 R233. -/
def plp (s : State) : Answer := finish do
  let s ← popFlags s
  .ok (advance s)

/-- 45 R234. -/
def clc : State → Answer := registerThen fun s => s.withP { s.p with c := false }

/-- 45 R235. -/
def sec : State → Answer := registerThen fun s => s.withP { s.p with c := true }

/-- 45 R236. -/
def cli : State → Answer := registerThen fun s => s.withP { s.p with i := false }

/-- 45 R237. -/
def sei : State → Answer := registerThen fun s => s.withP { s.p with i := true }

/-- 45 R238. -/
def clv : State → Answer := registerThen fun s => s.withP { s.p with v := false }

/-- 45 R239. -/
def cld : State → Answer := registerThen fun s => s.withP { s.p with d := false }

/-- 45 R240. -/
def sed : State → Answer := registerThen fun s => s.withP { s.p with d := true }

/-- 45 R241. -/
def nop : State → Answer := registerThen fun s => s

/-- 45 R249: the software interrupt is taken. -/
def brk (s : State) : Answer := finish (takeInterrupt s)

/-- 45 R250. -/
def rti (s : State) : Answer := finish (returnFromInterrupt s)

/-- 45 R251: neither counter is committed (decision D28); `step` runs no host window after it. -/
def halt (s : State) : Answer := .next (s.withStatus .stopped)


/-- PHA (48), R230. -/
def execPha (s : State) : Answer := pha s

/-- PLA (68), R231. -/
def execPla (s : State) : Answer := pla s

/-- PHP (08), R232. -/
def execPhp (s : State) : Answer := php s

/-- PLP (28), R233. -/
def execPlp (s : State) : Answer := plp s

/-- CLC (18), R234. -/
def execClc (s : State) : Answer := clc s

/-- SEC (38), R235. -/
def execSec (s : State) : Answer := sec s

/-- CLI (58), R236. -/
def execCli (s : State) : Answer := cli s

/-- SEI (78), R237. -/
def execSei (s : State) : Answer := sei s

/-- CLV (B8), R238. -/
def execClv (s : State) : Answer := clv s

/-- CLD (D8), R239. -/
def execCld (s : State) : Answer := cld s

/-- SED (F8), R240. -/
def execSed (s : State) : Answer := sed s

/-- NOP (EA), R241. -/
def execNop (s : State) : Answer := nop s

/-- BRK (00), R249. -/
def execBrk (s : State) : Answer := brk s

/-- RTI (40), R250. -/
def execRti (s : State) : Answer := rti s

/-- HALT (FF), R251. -/
def execHalt (s : State) : Answer := halt s

end Sys2Proof.Machine
end

