-- ==== Sys2Proof/Machine/Dispatch.lean ====
section
/-! DEFINITION. `exec`: one arm per constructor of `Instr`, each one direct call of that instruction's meaning.
The state it takes is the one `Decode()` leaves (00_scope.md R16): `pc` at the next instruction in memory order, `ispc`
at this instruction's opcode byte. -/

namespace Sys2Proof.Machine

open Sys2Proof

def exec (i : Instr) (s : State) : Host.Outcome State Fault Refusal :=
  match i with
  -- Load, store, transfer (41_load_store_transfer.md)
  | .ldaImm b => Sys2Proof.Machine.execLdaImm b s
  | .ldaZp b => Sys2Proof.Machine.execLdaZp b s
  | .ldaZpX b => Sys2Proof.Machine.execLdaZpX b s
  | .ldaAbs w => Sys2Proof.Machine.execLdaAbs w s
  | .ldaAbsX w => Sys2Proof.Machine.execLdaAbsX w s
  | .ldaAbsY w => Sys2Proof.Machine.execLdaAbsY w s
  | .ldaIndX b => Sys2Proof.Machine.execLdaIndX b s
  | .ldaIndY b => Sys2Proof.Machine.execLdaIndY b s
  | .ldxImm b => Sys2Proof.Machine.execLdxImm b s
  | .ldxZp b => Sys2Proof.Machine.execLdxZp b s
  | .ldxZpY b => Sys2Proof.Machine.execLdxZpY b s
  | .ldxAbs w => Sys2Proof.Machine.execLdxAbs w s
  | .ldxAbsY w => Sys2Proof.Machine.execLdxAbsY w s
  | .ldyImm b => Sys2Proof.Machine.execLdyImm b s
  | .ldyZp b => Sys2Proof.Machine.execLdyZp b s
  | .ldyZpX b => Sys2Proof.Machine.execLdyZpX b s
  | .ldyAbs w => Sys2Proof.Machine.execLdyAbs w s
  | .ldyAbsX w => Sys2Proof.Machine.execLdyAbsX w s
  | .staZp b => Sys2Proof.Machine.execStaZp b s
  | .staZpX b => Sys2Proof.Machine.execStaZpX b s
  | .staAbs w => Sys2Proof.Machine.execStaAbs w s
  | .staAbsX w => Sys2Proof.Machine.execStaAbsX w s
  | .staAbsY w => Sys2Proof.Machine.execStaAbsY w s
  | .staIndX b => Sys2Proof.Machine.execStaIndX b s
  | .staIndY b => Sys2Proof.Machine.execStaIndY b s
  | .stxZp b => Sys2Proof.Machine.execStxZp b s
  | .stxZpY b => Sys2Proof.Machine.execStxZpY b s
  | .stxAbs w => Sys2Proof.Machine.execStxAbs w s
  | .styZp b => Sys2Proof.Machine.execStyZp b s
  | .styZpX b => Sys2Proof.Machine.execStyZpX b s
  | .styAbs w => Sys2Proof.Machine.execStyAbs w s
  | .tax => Sys2Proof.Machine.execTax s
  | .tay => Sys2Proof.Machine.execTay s
  | .txa => Sys2Proof.Machine.execTxa s
  | .tya => Sys2Proof.Machine.execTya s
  | .tsx => Sys2Proof.Machine.execTsx s
  | .txs => Sys2Proof.Machine.execTxs s
  -- Arithmetic, logic, compare, increment (42_arith_logic.md)
  | .adcImm b => Sys2Proof.Machine.execAdcImm b s
  | .adcZp b => Sys2Proof.Machine.execAdcZp b s
  | .adcZpX b => Sys2Proof.Machine.execAdcZpX b s
  | .adcAbs w => Sys2Proof.Machine.execAdcAbs w s
  | .adcAbsX w => Sys2Proof.Machine.execAdcAbsX w s
  | .adcAbsY w => Sys2Proof.Machine.execAdcAbsY w s
  | .adcIndX b => Sys2Proof.Machine.execAdcIndX b s
  | .adcIndY b => Sys2Proof.Machine.execAdcIndY b s
  | .sbcImm b => Sys2Proof.Machine.execSbcImm b s
  | .sbcZp b => Sys2Proof.Machine.execSbcZp b s
  | .sbcZpX b => Sys2Proof.Machine.execSbcZpX b s
  | .sbcAbs w => Sys2Proof.Machine.execSbcAbs w s
  | .sbcAbsX w => Sys2Proof.Machine.execSbcAbsX w s
  | .sbcAbsY w => Sys2Proof.Machine.execSbcAbsY w s
  | .sbcIndX b => Sys2Proof.Machine.execSbcIndX b s
  | .sbcIndY b => Sys2Proof.Machine.execSbcIndY b s
  | .andImm b => Sys2Proof.Machine.execAndImm b s
  | .andZp b => Sys2Proof.Machine.execAndZp b s
  | .andZpX b => Sys2Proof.Machine.execAndZpX b s
  | .andAbs w => Sys2Proof.Machine.execAndAbs w s
  | .andAbsX w => Sys2Proof.Machine.execAndAbsX w s
  | .andAbsY w => Sys2Proof.Machine.execAndAbsY w s
  | .andIndX b => Sys2Proof.Machine.execAndIndX b s
  | .andIndY b => Sys2Proof.Machine.execAndIndY b s
  | .oraImm b => Sys2Proof.Machine.execOraImm b s
  | .oraZp b => Sys2Proof.Machine.execOraZp b s
  | .oraZpX b => Sys2Proof.Machine.execOraZpX b s
  | .oraAbs w => Sys2Proof.Machine.execOraAbs w s
  | .oraAbsX w => Sys2Proof.Machine.execOraAbsX w s
  | .oraAbsY w => Sys2Proof.Machine.execOraAbsY w s
  | .oraIndX b => Sys2Proof.Machine.execOraIndX b s
  | .oraIndY b => Sys2Proof.Machine.execOraIndY b s
  | .eorImm b => Sys2Proof.Machine.execEorImm b s
  | .eorZp b => Sys2Proof.Machine.execEorZp b s
  | .eorZpX b => Sys2Proof.Machine.execEorZpX b s
  | .eorAbs w => Sys2Proof.Machine.execEorAbs w s
  | .eorAbsX w => Sys2Proof.Machine.execEorAbsX w s
  | .eorAbsY w => Sys2Proof.Machine.execEorAbsY w s
  | .eorIndX b => Sys2Proof.Machine.execEorIndX b s
  | .eorIndY b => Sys2Proof.Machine.execEorIndY b s
  | .bitZp b => Sys2Proof.Machine.execBitZp b s
  | .bitAbs w => Sys2Proof.Machine.execBitAbs w s
  | .cmpImm b => Sys2Proof.Machine.execCmpImm b s
  | .cmpZp b => Sys2Proof.Machine.execCmpZp b s
  | .cmpZpX b => Sys2Proof.Machine.execCmpZpX b s
  | .cmpAbs w => Sys2Proof.Machine.execCmpAbs w s
  | .cmpAbsX w => Sys2Proof.Machine.execCmpAbsX w s
  | .cmpAbsY w => Sys2Proof.Machine.execCmpAbsY w s
  | .cmpIndX b => Sys2Proof.Machine.execCmpIndX b s
  | .cmpIndY b => Sys2Proof.Machine.execCmpIndY b s
  | .cpxImm b => Sys2Proof.Machine.execCpxImm b s
  | .cpxZp b => Sys2Proof.Machine.execCpxZp b s
  | .cpxAbs w => Sys2Proof.Machine.execCpxAbs w s
  | .cpyImm b => Sys2Proof.Machine.execCpyImm b s
  | .cpyZp b => Sys2Proof.Machine.execCpyZp b s
  | .cpyAbs w => Sys2Proof.Machine.execCpyAbs w s
  | .incZp b => Sys2Proof.Machine.execIncZp b s
  | .incZpX b => Sys2Proof.Machine.execIncZpX b s
  | .incAbs w => Sys2Proof.Machine.execIncAbs w s
  | .incAbsX w => Sys2Proof.Machine.execIncAbsX w s
  | .decZp b => Sys2Proof.Machine.execDecZp b s
  | .decZpX b => Sys2Proof.Machine.execDecZpX b s
  | .decAbs w => Sys2Proof.Machine.execDecAbs w s
  | .decAbsX w => Sys2Proof.Machine.execDecAbsX w s
  | .inx => Sys2Proof.Machine.execInx s
  | .iny => Sys2Proof.Machine.execIny s
  | .dex => Sys2Proof.Machine.execDex s
  | .dey => Sys2Proof.Machine.execDey s
  -- Shift and rotate (43_shift_rotate.md)
  | .aslAcc => Sys2Proof.Machine.execAslAcc s
  | .aslZp b => Sys2Proof.Machine.execAslZp b s
  | .aslZpX b => Sys2Proof.Machine.execAslZpX b s
  | .aslAbs w => Sys2Proof.Machine.execAslAbs w s
  | .aslAbsX w => Sys2Proof.Machine.execAslAbsX w s
  | .lsrAcc => Sys2Proof.Machine.execLsrAcc s
  | .lsrZp b => Sys2Proof.Machine.execLsrZp b s
  | .lsrZpX b => Sys2Proof.Machine.execLsrZpX b s
  | .lsrAbs w => Sys2Proof.Machine.execLsrAbs w s
  | .lsrAbsX w => Sys2Proof.Machine.execLsrAbsX w s
  | .rolAcc => Sys2Proof.Machine.execRolAcc s
  | .rolZp b => Sys2Proof.Machine.execRolZp b s
  | .rolZpX b => Sys2Proof.Machine.execRolZpX b s
  | .rolAbs w => Sys2Proof.Machine.execRolAbs w s
  | .rolAbsX w => Sys2Proof.Machine.execRolAbsX w s
  | .rorAcc => Sys2Proof.Machine.execRorAcc s
  | .rorZp b => Sys2Proof.Machine.execRorZp b s
  | .rorZpX b => Sys2Proof.Machine.execRorZpX b s
  | .rorAbs w => Sys2Proof.Machine.execRorAbs w s
  | .rorAbsX w => Sys2Proof.Machine.execRorAbsX w s
  -- Control transfer (44_control_transfer.md)
  | .bpl b => Sys2Proof.Machine.execBpl b s
  | .bmi b => Sys2Proof.Machine.execBmi b s
  | .bvc b => Sys2Proof.Machine.execBvc b s
  | .bvs b => Sys2Proof.Machine.execBvs b s
  | .bcc b => Sys2Proof.Machine.execBcc b s
  | .bcs b => Sys2Proof.Machine.execBcs b s
  | .bne b => Sys2Proof.Machine.execBne b s
  | .beq b => Sys2Proof.Machine.execBeq b s
  | .jmpAbs w => Sys2Proof.Machine.execJmpAbs w s
  | .jmpInd w => Sys2Proof.Machine.execJmpInd w s
  | .jsr w => Sys2Proof.Machine.execJsr w s
  | .rts => Sys2Proof.Machine.execRts s
  -- Stack, flag, system (45_stack_flag_system.md)
  | .pha => Sys2Proof.Machine.execPha s
  | .pla => Sys2Proof.Machine.execPla s
  | .php => Sys2Proof.Machine.execPhp s
  | .plp => Sys2Proof.Machine.execPlp s
  | .clc => Sys2Proof.Machine.execClc s
  | .sec => Sys2Proof.Machine.execSec s
  | .cli => Sys2Proof.Machine.execCli s
  | .sei => Sys2Proof.Machine.execSei s
  | .clv => Sys2Proof.Machine.execClv s
  | .cld => Sys2Proof.Machine.execCld s
  | .sed => Sys2Proof.Machine.execSed s
  | .nop => Sys2Proof.Machine.execNop s
  | .brk => Sys2Proof.Machine.execBrk s
  | .rti => Sys2Proof.Machine.execRti s
  | .halt => Sys2Proof.Machine.execHalt s

end Sys2Proof.Machine
end

