-- ==== Sys2Proof/Machine/HostOps.lean ====
section
/-! DEFINITION. What the host does: the operations that initialise the block (70_reset_and_hazards.md R331 to R334)
and the host window (46_sequencer.md R266 to R269). -/

namespace Sys2Proof.Machine

/-- The `reset` operation, 70 R331, 10 R57: `running` is unchanged and the inputs of the step relation (draws, host
moves) are not the machine's to reset. -/
def hostReset (s : State) : State :=
  { s with
    a := 0, x := 0, y := 0, sp := spAfterReset, pc := 0, ispc := 0, p := Flags.clear, mem := [], snapshot := []
    dirty := false, status := .idle }

/-- `load(addr, bytes)`, 70 R332: `none` when the bytes do not fit; raw array writes, no `dirty` (decision D37). -/
def hostLoad (addr : Nat) (bytes : List Byte) (s : State) : Option State :=
  if memSize < addr + bytes.length then none else some (s.withMem (setCells s.mem addr bytes))

/-- `load_and_enter(addr, bytes)`, 70 R333. -/
def hostLoadAndEnter (addr : Nat) (bytes : List Byte) (s : State) : Option State :=
  match hostLoad addr bytes s with
  | none => none
  | some s => some ((s.withPc addr).withIspc addr)

/-- `boot`, 70 R334: its loop is `Host.Core.run` over `step`. -/
def hostBoot (s : State) : State := (s.withRunning true).withStatus .running

/-- Display sync, 46 R267: `dirty` is cleared if it is set; the picture is outside the block. -/
def displaySync (s : State) : State := s.withDirty false

/-- The host's move in this window, 46 R271: the next one listed; after those, none, or a fresh free one
(log entry 7). -/
def nextMove (s : State) : HostMove × State :=
  match s.host with
  | move :: moves => (move, s.withHost moves)
  | [] =>
    match s.hostRest with
    | .silent => ({ key := none, quit := false }, s)
    | .free n => ({ key := Config.freeKey n, quit := Config.freeQuit n }, s.withHostRest (.free (n + 1)))

/-- The key write of 46 R268 (a): `MemWrite(KEY_ADDR, 1, k)`, which cannot fault (`KEY_ADDR < MEM_SIZE`). -/
def keyWrite (key : Option (Fin 4)) (s : State) : State :=
  match key with
  | none => s
  | some k => storeCell Config.keyAddr (Config.keyCode k) s

/-- Input poll, 46 R268: the key write, then the quit. -/
def inputPoll (s : State) : State :=
  let move := nextMove s
  let s := keyWrite move.1.key move.2
  if move.1.quit then s.withRunning false else s

/-- `HostWindow()` of 46 R266 and the loop's test after it (R261, R269): `status <- Quit` when `running` is clear. -/
def hostWindow (s : State) : State :=
  let s := inputPoll (displaySync s)
  if s.running then s else s.withStatus .quit

end Sys2Proof.Machine
end

