-- ==== Sys2Proof/Machine/Fetch.lean ====
section
/-! DEFINITION. `Decode()` on the machine (30_encoding.md R118): bytes come through `memRead` (20 R76). -/

namespace Sys2Proof.Machine

/-- The byte at PC through the bus, and PC one further. -/
def fetchByte (s : State) : Except Fault (Byte × State) := do
  let b ← memRead s.pc s
  .ok (b.1, b.2.withPc (s.pc + 1))

/-- An operand byte of the instruction with this opcode, or `TruncatedOperand` at the end of memory (30 R120). -/
def fetchOperand (op : Byte) (s : State) : Except Fault (Byte × State) :=
  if memSize ≤ s.pc then raiseTruncatedOperand op s else fetchByte s

/-- `Decode()`, 30 R118: `none` is the clean end of stream (R119). The table is looked up before any operand byte is
fetched (decision D26); PC keeps its increments when it raises (decision D21). -/
def fetch (s : State) : Except Fault (Option Instr × State) :=
  if memSize ≤ s.pc then .ok (none, s)
  else do
    let op ← fetchByte s
    match lookup op.1 with
    | none => raiseUnknownOpcode op.1 op.2
    | some (.noOperand i) => .ok (some i, op.2)
    | some (.byteOperand f) => do
      let b ← fetchOperand op.1 op.2
      .ok (some (f b.1), b.2)
    | some (.wordOperand f) => do
      let lo ← fetchOperand op.1 op.2
      let hi ← fetchOperand op.1 lo.2
      .ok (some (f (wordOf hi.1 lo.1)), hi.2)

/-- The end of a core step (46 R261): no host window after a HALT or a fault (R264). -/
def afterExec : Answer → Answer
  | .next s => if s.status = .stopped then .next s else .next (hostWindow s)
  | .fault f => .fault f
  | .refused r => .refused r

/-- Where the host loads a program that is to run next: at PC when the longest instruction fits there and no byte of
it falls on `RANDOM_ADDR` (whose reads are draws), else at 0 (log entry 2). -/
def entryFor (s : State) : Nat :=
  if s.pc + 3 ≤ memSize ∧ (s.pc + 2 < randomAddr ∨ randomAddr < s.pc) then s.pc else 0

/-- The host's load, entry and boot (70 R333, R334) of a table word's bytes. -/
def placeAndBoot (nbits w : Nat) (s : State) : State :=
  let addr := entryFor s
  hostBoot (((s.withMem (setCells s.mem addr (tableWordBytes nbits w))).withPc addr).withIspc addr)

end Sys2Proof.Machine
end

