-- ==== Sys2Proof/Machine/Step.lean ====
section
/-! DEFINITION. One step of the machine: `CoreStep()` of 46_sequencer.md R261, in status `Running`. In every other
status no step is enabled: the machine keeps its whole state until the host acts (60 R313; log entry 3). -/

namespace Sys2Proof.Machine

open Sys2Proof

def step (s : State) : Host.Outcome State Fault Refusal :=
  match s.status with
  | .running =>
    match fetch s with
    | .error f => .fault f
    | .ok (none, s) => .next (s.withStatus .ended)
    | .ok (some i, s) => afterExec (exec i s)
  | .idle => .next s
  | .stopped => .next s
  | .ended => .next s
  | .quit => .next s
  | .faulted _ => .next s

/-- The machine with an instruction loaded where it fetches next, entered and booted (log entry 2). -/
def State.withFetchWord (s : State) (nbits w : Nat) : State := placeAndBoot nbits w s

end Sys2Proof.Machine
end

