-- ==== Sys2Proof/Safety.lean ====
section
/-! DEFINITION. The words that claims are stated in: the invariant of 10_state.md R59, what an access through the
random source may change, clean ends, and the spec's own lists (30 R123, 10 R41). -/

namespace Sys2Proof

/-- The instructions that read an operand byte and store nothing. -/
def Mnemonic.readsOperand : Mnemonic → Bool
  | .lda | .ldx | .ldy | .adc | .sbc | .and | .ora | .eor | .bit | .cmp | .cpx | .cpy => true
  | _ => false

/-- The instructions that store the byte of a register. -/
def Mnemonic.stores : Mnemonic → Bool
  | .sta | .stx | .sty => true
  | _ => false

/-- The instructions that have a read-modify-write form. -/
def Mnemonic.modifies : Mnemonic → Bool
  | .inc | .dec | .asl | .lsr | .rol | .ror => true
  | _ => false

/-- The instructions that push on the stack. -/
def Mnemonic.pushes : Mnemonic → Bool
  | .pha | .php | .jsr | .brk => true
  | _ => false

/-- The instructions that pop from the stack. -/
def Mnemonic.pops : Mnemonic → Bool
  | .pla | .plp | .rts | .rti => true
  | _ => false

/-- Commit by `Goto` on every path (46 R263). -/
def Mnemonic.alwaysGoes : Mnemonic → Bool
  | .jmp | .jsr | .rts | .rti | .brk => true
  | _ => false

end Sys2Proof

namespace Sys2Proof.Machine

open Sys2Proof

/-- What holds between any two steps (10 R59): memory and snapshot are arrays in canonical form, the counters are in
range, and `ISPC = PC`, but for a machine that executed HALT, where PC is one further (45 R251). -/
structure State.Inv (s : State) : Prop where
  mem_wf : Memory.wf memSize s.mem = true
  snapshot_wf : Memory.wf displaySize s.snapshot = true
  pc_le : s.pc ≤ memSize
  counters : s.pc = if s.status = .stopped then s.ispc + 1 else s.ispc

/-- `t` differs from `s` in nothing but the draws that were consumed: all a read can change (20 R70, R81). -/
def SameButDraws (s t : State) : Prop :=
  t = (s.withDraws t.draws).withDrawCount t.drawCount

/-- A step that ends in no error kind. -/
def Safe (o : Answer) : Prop := ∀ f, o ≠ .fault f

/-- The bytes that are no opcode, as 30_encoding.md R123 lists them. -/
def illegalOpcodes : List Byte :=
  [0x02, 0x03, 0x04, 0x07, 0x0B, 0x0C, 0x0F, 0x12, 0x13, 0x14, 0x17, 0x1A, 0x1B, 0x1C, 0x1F, 0x22, 0x23, 0x27, 0x2B,
   0x2F, 0x32, 0x33, 0x34, 0x37, 0x3A, 0x3B] ++
  [0x3C, 0x3F, 0x42, 0x43, 0x44, 0x47, 0x4B, 0x4F, 0x52, 0x53, 0x54, 0x57, 0x5A, 0x5B, 0x5C, 0x5F, 0x62, 0x63, 0x64,
   0x67, 0x6B, 0x6F, 0x72, 0x73, 0x74, 0x77] ++
  [0x7A, 0x7B, 0x7C, 0x7F, 0x80, 0x82, 0x83, 0x87, 0x89, 0x8B, 0x8F, 0x92, 0x93, 0x97, 0x9B, 0x9C, 0x9E, 0x9F, 0xA3,
   0xA7, 0xAB, 0xAF, 0xB2, 0xB3, 0xB7, 0xBB] ++
  [0xBF, 0xC2, 0xC3, 0xC7, 0xCB, 0xCF, 0xD2, 0xD3, 0xD4, 0xD7, 0xDA, 0xDB, 0xDC, 0xDF, 0xE2, 0xE3, 0xE7, 0xEB, 0xEF,
   0xF2, 0xF3, 0xF4, 0xF7, 0xFA, 0xFB, 0xFC]

/-- The flags by name, to say which ones an instruction writes. -/
inductive FlagName where
  | c | z | i | d | b | v | n
  deriving DecidableEq, Repr

/-- A flag by its name. -/
def Flags.get (p : Flags) : FlagName → Bool
  | .c => p.c
  | .z => p.z
  | .i => p.i
  | .d => p.d
  | .b => p.b
  | .v => p.v
  | .n => p.n

/-- Who writes each flag, the column "written by" of 10_state.md R41, turned round: the flags of a mnemonic. -/
def flagsWritten : Mnemonic → List FlagName
  | .lda | .ldx | .ldy | .tax | .tay | .txa | .tya | .tsx | .pla => [.z, .n]
  | .and | .ora | .eor | .inx | .iny | .dex | .dey | .inc | .dec => [.z, .n]
  | .adc | .sbc => [.c, .z, .v, .n]
  | .asl | .lsr | .rol | .ror | .cmp | .cpx | .cpy => [.c, .z, .n]
  | .bit => [.z, .v, .n]
  | .clc | .sec => [.c]
  | .cli | .sei | .brk => [.i]
  | .cld | .sed => [.d]
  | .clv => [.v]
  | .plp | .rti => [.c, .z, .i, .d, .b, .v, .n]
  | .sta | .stx | .sty | .txs | .pha | .php | .jmp | .jsr | .rts | .nop | .halt => []
  | .bpl | .bmi | .bvc | .bvs | .bcc | .bcs | .bne | .beq => []

/-- The eight branches: the flag each tests and the value it is taken on (44 R211 to R218). -/
def branchTest : Mnemonic → Option (FlagName × Bool)
  | .bpl => some (.n, false)
  | .bmi => some (.n, true)
  | .bvc => some (.v, false)
  | .bvs => some (.v, true)
  | .bcc => some (.c, false)
  | .bcs => some (.c, true)
  | .bne => some (.z, false)
  | .beq => some (.z, true)
  | _ => none

end Sys2Proof.Machine
end

