-- ==== Sys2Proof/Certificates/Slice0/Obligations.lean ====
section
/-! DEFINITION. The statements for the provers, from the numbered rules of spec/. `s` is the state an instruction's
body starts in (00_scope.md R16: `pc` past the instruction, `ispc` at its opcode byte), `s1` the state after its
operand was read, which differs from `s` in nothing but consumed draws (`OperandRule`). -/

open Sys2Proof Sys2Proof.Machine

/-! ## Encoding -/

/-- Decoding what the encoder wrote gives the instruction back, with the bytes that follow it untouched.
The opcode bytes are the spec's decision D11, the operand's byte order D12. -/
def Obligations.DecodeOfEncode : Prop :=
  ∀ (i : Instr) (rest : List Byte), WellFormed i = true → decode (encode i ++ rest) = .ok (i, rest)

/-- The other way: a list that decodes begins with the instruction's own bytes; BRK alone has a free byte, its pad
(30 R116, R125).
That the encoder writes the pad as 0 is the model's choice, log entry 12. -/
def Obligations.EncodeOfDecode : Prop :=
  ∀ (bytes : List Byte) (i : Instr) (rest : List Byte), decode bytes = .ok (i, rest) →
    if i = .brk then ∃ pad, bytes = 0x00 :: pad :: rest else bytes = encode i ++ rest

/-- Words written out from the encodings of 30 R121 and R127, one for each family and format.
The bytes are the spec's decision D11, the operand's byte order D12. -/
def Obligations.SpecWordsDecode : Prop :=
  decode [0xA9, 0x05] = .ok (.ldaImm 0x05, []) ∧
  decode [0x8D, 0x34, 0x02] = .ok (.staAbs 0x0234, []) ∧
  decode [0x69, 0x03, 0xFF] = .ok (.adcImm 0x03, [0xFF]) ∧
  decode [0xB1, 0x10] = .ok (.ldaIndY 0x10, []) ∧
  decode [0x7E, 0x00, 0x03] = .ok (.rorAbsX 0x0300, []) ∧
  decode [0xD0, 0xFF] = .ok (.bne 0xFF, []) ∧
  decode [0x6C, 0x10, 0x00] = .ok (.jmpInd 0x0010, []) ∧
  decode [0x00, 0xEA] = .ok (.brk, []) ∧
  decode [0xFF] = .ok (.halt, [])

/-! ## Fetching and the step -/

/-- 30 R123, 60 R293: the 104 bytes outside the table, and no others, raise `UnknownOpcode`, after the opcode byte
was consumed and before anything else. The byte is whatever the bus gives, a draw included.
Which bytes are in the table is the spec's decision D11; that PC keeps its increment is D21. -/
def Obligations.UnknownOpcodeFaults : Prop :=
  illegalOpcodes.length = 104 ∧
  ∀ (s s1 : State) (op : Byte), s.status = .running → memRead s.pc s = .ok (op, s1) →
    (op ∈ illegalOpcodes →
      step s = .fault (.unknownOpcode op ((s1.withPc (s.pc + 1)).withStatus (.faulted .unknownOpcode)))) ∧
    (op ∉ illegalOpcodes → ∀ q t, step s ≠ .fault (.unknownOpcode q t))

/-- 30 R120, 60 R294: a 2-byte instruction (BRK too) at the last address and a 3-byte one at the last two raise
`TruncatedOperand` with every byte of memory consumed and no body run, and nothing else raises it.
The order of the decoder's tests and BRK's pad are the spec's decision D26. -/
def Obligations.TruncatedOperandFaults : Prop :=
  ∀ (s : State), s.status = .running → s.pc < memSize →
    (∀ e, lookup (cellAt s.mem s.pc) = some e → memSize < s.pc + 1 + e.count →
      step s = .fault (.truncatedOperand (cellAt s.mem s.pc)
        ((s.withPc memSize).withStatus (.faulted .truncatedOperand)))) ∧
    (∀ op t, step s = .fault (.truncatedOperand op t) →
      op = cellAt s.mem s.pc ∧ ∃ e, lookup op = some e ∧ memSize < s.pc + 1 + e.count)

/-- 30 R119, 46 R264 (b): with no byte left the run ends cleanly and nothing else changes.
That the stream ends at the end of memory is the spec's decision D33. -/
def Obligations.EndOfStreamEnds : Prop :=
  (∀ s : State, s.status = .running → memSize ≤ s.pc → step s = .next (s.withStatus .ended)) ∧
  (∀ s : State, ∃ f, goto memSize s = .error f)

/-- A step runs the decoded instruction: `exec` on the state the decoder leaves, then the host window, unless the
instruction stopped the run or faulted (46 R261).
That `exec` starts from the state after decoding is the model's choice, log entry 11. -/
def Obligations.StepRunsDecodedInstruction : Prop :=
  ∀ (s s1 : State) (i : Instr), s.status = .running → fetch s = .ok (some i, s1) →
    (∀ t, exec i s1 = .next t → t.status = .stopped → step s = .next t) ∧
    (∀ t, exec i s1 = .next t → t.status ≠ .stopped → step s = .next (hostWindow t)) ∧
    (∀ f, exec i s1 = .fault f → step s = .fault f)

/-- 30 R118, 46 R262: the bytes of an instruction lying at PC, below the end of memory and off `RANDOM_ADDR`, are
fetched as that instruction, with `pc` past it and `ispc` where it was. BRK takes any pad byte. -/
def Obligations.EncodedInstructionIsFetched : Prop :=
  (∀ (s : State) (i : Instr), s.pc + (encode i).length ≤ memSize →
    (∀ k (h : k < (encode i).length), s.pc + k ≠ randomAddr ∧ cellAt s.mem (s.pc + k) = (encode i)[k]) →
      fetch s = .ok (some i, s.withPc (s.pc + (encode i).length))) ∧
  (∀ s : State, s.pc + 2 ≤ memSize → s.pc ≠ randomAddr → s.pc + 1 ≠ randomAddr → cellAt s.mem s.pc = 0x00 →
    fetch s = .ok (some .brk, s.withPc (s.pc + 2)))

/-- A machine that is not running keeps its whole state (60 R313; that a step then answers this state is the model's
choice, log entry 3). -/
def Obligations.NotRunningKeepsState : Prop :=
  ∀ s : State, s.status ≠ .running → step s = .next s

/-- 46 R267 to R269, R271: what one host window does, for every move of the host: one that is listed, none after a
list with nothing to follow, or a free one after a list that an open-ended schedule follows. No register, flag or
counter changes, and `running` is never set.
The host's moves are the spec's decision D23; where the state holds them is the model's choice, log entry 7, and nothing
is said of which move a free one is. -/
def Obligations.HostWindowEffect : Prop :=
  ∀ (s u : State) (move : HostMove),
    ((∃ moves, s.host = move :: moves ∧ u = { s with host := moves }) ∨
      (s.host = [] ∧ s.hostRest = .silent ∧ move = { key := none, quit := false } ∧ u = s) ∨
      (∃ n, s.host = [] ∧ s.hostRest = .free n ∧
        move = { key := Config.freeKey n, quit := Config.freeQuit n } ∧ u = { s with hostRest := .free (n + 1) })) →
    (∀ k, move.key = some k →
      hostWindow s = { u with
        mem := setCell s.mem Config.keyAddr (Config.keyCode k)
        dirty := inDisplay Config.keyAddr && cellAt s.mem Config.keyAddr != Config.keyCode k
        running := s.running && !move.quit
        status := if s.running && !move.quit then s.status else .quit }) ∧
    (move.key = none →
      hostWindow s = { u with
        dirty := false, running := s.running && !move.quit
        status := if s.running && !move.quit then s.status else .quit })

/-- 10 R59: canonical memory, counters in range, `ISPC = PC` between instructions: every step keeps it, from every
state that has it.
That the counters are integers kept in range by the invariant is the model's choice, log entry 10. -/
def Obligations.StepKeepsInv : Prop :=
  ∀ s t : State, s.Inv → step s = .next t → t.Inv

/-- The invariant holds right after reset and at power-on. -/
def Obligations.ResetHasInv : Prop :=
  State.reset.Inv ∧ State.powerOn.Inv

/-- 10 R56, R57, 70 R331: the power-on values, and what `reset` leaves on any machine; the cells are read through
`cellAt`. After `reset` the first push faults, after power-on the first pop does.
The values are the spec's decisions D16 and D17; that the machine is reset from power-on is log entry 1. -/
def Obligations.ResetValues : Prop :=
  (∀ s : State,
    let r := hostReset s
    r.a = 0x00 ∧ r.x = 0x00 ∧ r.y = 0x00 ∧ r.sp = 0x00 ∧ r.pc = 0 ∧ r.ispc = 0 ∧
    (∀ f, r.p.get f = false) ∧ (∀ a, cellAt r.mem a = 0x00) ∧ (∀ a, cellAt r.snapshot a = 0x00) ∧
    r.dirty = false ∧ r.running = s.running ∧ r.status = .idle ∧
    ∀ v, push8 v r = .error (.stackOverflow (r.withStatus (.faulted .stackOverflow)))) ∧
  (let r := State.powerOn
   r.a = 0x00 ∧ r.x = 0x00 ∧ r.y = 0x00 ∧ r.sp = 0xFF ∧ r.pc = 0 ∧ r.ispc = 0 ∧
   (∀ f, r.p.get f = false) ∧ (∀ a, cellAt r.mem a = 0x00) ∧ (∀ a, cellAt r.snapshot a = 0x00) ∧
   r.dirty = false ∧ r.running = false ∧ r.status = .idle ∧
   pop8 r = .error (.stackUnderflow (r.withStatus (.faulted .stackUnderflow)))) ∧
  State.reset = hostReset State.powerOn

/-- 70 R332 to R334: load writes the bytes and nothing else or fails with nothing written; the entering variant sets
both counters; boot sets `running` and the status and nothing else.
Loading is the spec's decision D37; the entry is log entry 13. -/
def Obligations.HostLoadAndBoot : Prop :=
  (∀ (s : State) (addr : Nat) (bytes : List Byte),
    (memSize < addr + bytes.length → hostLoad addr bytes s = none ∧ hostLoadAndEnter addr bytes s = none) ∧
    (addr + bytes.length ≤ memSize →
      ∃ m, hostLoad addr bytes s = some (s.withMem m) ∧
        hostLoadAndEnter addr bytes s = some (((s.withMem m).withPc addr).withIspc addr) ∧
        (∀ k (h : k < bytes.length), cellAt m (addr + k) = bytes[k]) ∧
        ∀ b, b < addr ∨ addr + bytes.length ≤ b → cellAt m b = cellAt s.mem b)) ∧
  (∀ s : State, hostBoot s = { s with running := true, status := .running })

/-- 60 R298: a fault is terminal: the status is `Faulted(kind)`, `running` is as it was, no host window ran, and no
later step changes anything.
What a fault keeps is the spec's decision D21; that it carries the state, log entry 4, and that a step in that
status answers the same state, log entry 3, are the model's choices. -/
def Obligations.FaultsAreTerminal : Prop :=
  ∀ (s : State) (f : Fault), step s = .fault f →
    f.state.status = .faulted f.kind ∧ f.state.running = s.running ∧ f.state.host = s.host ∧
    f.state.hostRest = s.hostRest ∧
    f.state.snapshot = s.snapshot ∧ step f.state = .next f.state

/-! ## Memory -/

/-- 20 R70, R72, R76: bounds check, random source, cell. An injected draw `d` is read as `d + 1`, in the order given;
when none is left the draws are those of the free stream, one further each time; all lie in 1 .. 15, and the cell's
content plays no part. A fetch goes through the same read. A read changes nothing but the draws.
The draws are the spec's decision D31, a fetch through the same read D18; the two streams of draws are the model's
choice, log entry 6, and nothing is said of a draw's value but its range. -/
def Obligations.MemReadRule : Prop :=
  ∀ (s : State) (a : Nat),
    (memSize ≤ a → memRead a s = .error (.outOfBounds a (s.withStatus (.faulted .outOfBounds)))) ∧
    (a < memSize → a ≠ randomAddr → memRead a s = .ok (cellAt s.mem a, s)) ∧
    (∀ d ds, s.draws = d :: ds → ∃ r, memRead randomAddr s = .ok (r, s.withDraws ds) ∧ r.toNat = d.val + 1) ∧
    (s.draws = [] → ∃ r, memRead randomAddr s = .ok (r, s.withDrawCount (s.drawCount + 1)) ∧
      r.toNat = (Config.freeDraw s.drawCount).val + 1) ∧
    (∀ r, memRead randomAddr s = .ok r → 1 ≤ r.1.toNat ∧ r.1.toNat < 16 ∧ SameButDraws s r.2) ∧
    (∀ r, memRead s.pc s = .ok r → fetchByte s = .ok (r.1, r.2.withPc (s.pc + 1)))

/-- 20 R73: low byte first, high byte at the next address with no page wrap; each byte is a full read.
The order of the tests is the spec's decision D19. -/
def Obligations.MemRead16Rule : Prop :=
  ∀ (s : State) (a : Nat),
    (∀ lo s1 hi s2, memRead a s = .ok (lo, s1) → memRead (a + 1) s1 = .ok (hi, s2) →
      ∃ w, memRead16 a s = .ok (w, s2) ∧ w.toNat = hi.toNat * 256 + lo.toNat) ∧
    (∀ f, memRead a s = .error f → memRead16 a s = .error f) ∧
    (∀ lo s1 f, memRead a s = .ok (lo, s1) → memRead (a + 1) s1 = .error f → memRead16 a s = .error f)

/-- 20 R71, R74: a write out of bounds changes nothing; a write in bounds changes that cell alone, and `dirty`
becomes true exactly when a display cell gets a value it did not hold. -/
def Obligations.MemWriteRule : Prop :=
  ∀ (s : State) (a : Nat) (v : Byte),
    (memSize ≤ a → memWrite a v s = .error (.outOfBounds a (s.withStatus (.faulted .outOfBounds)))) ∧
    (a < memSize → ∃ m, memWrite a v s = .ok { s with
        mem := m
        dirty := s.dirty || (decide (Config.displayBase ≤ a ∧ a < Config.displayBase + 1024) &&
          cellAt s.mem a != v) } ∧
      cellAt m a = v ∧ ∀ b, b ≠ a → cellAt m b = cellAt s.mem b)

/-- 20 R89, R75: a byte written is read back, at every address but `RANDOM_ADDR`, where the write is allowed, lands
in the cell, and every read is a draw.
The write to `RANDOM_ADDR` is the spec's decision D30. -/
def Obligations.ReadAfterWrite : Prop :=
  ∀ (s t : State) (a : Nat) (v : Byte), memWrite a v s = .ok t →
    (a ≠ randomAddr → memRead a t = .ok (v, t)) ∧
    (a = randomAddr → cellAt t.mem a = v ∧ ∀ r, memRead a t = .ok r → r = draw t ∧ r.1 ≠ 0 ∧ r.1.toNat ≤ 15)

/-! ## Operands -/

/-- 40 R143: zero-page modes add the index as a full address, do not wrap, never fault, and lie in memory.
That the checked addition never overflows is the spec's inference. -/
def Obligations.ZeroPageModes : Prop :=
  ∀ (s : State) (b : Byte),
    resolveAddress (.zeroPage b .none) s = .ok (b.toNat, s) ∧
    resolveAddress (.zeroPage b .x) s = .ok (b.toNat + s.x.toNat, s) ∧
    resolveAddress (.zeroPage b .y) s = .ok (b.toNat + s.y.toNat, s) ∧
    b.toNat + s.x.toNat ≤ 0x1FE ∧ b.toNat + s.y.toNat ≤ 0x1FE ∧ 0x1FE < memSize

/-- 40 R142, R144: absolute modes; a sum above 0xFFFF raises `AddressCalculation`, an address above memory does not. -/
def Obligations.AbsoluteModes : Prop :=
  ∀ (s : State) (w : Word),
    resolveAddress (.absolute w .none) s = .ok (w.toNat, s) ∧
    resolveAddress (.absolute w .x) s = (if w.toNat + s.x.toNat ≤ 0xFFFF then .ok (w.toNat + s.x.toNat, s)
      else .error (.addressCalculation (s.withStatus (.faulted .addressCalculation)))) ∧
    resolveAddress (.absolute w .y) s = (if w.toNat + s.y.toNat ≤ 0xFFFF then .ok (w.toNat + s.y.toNat, s)
      else .error (.addressCalculation (s.withStatus (.faulted .addressCalculation))))

/-- 40 R145, R146: the displacement is added to the branch's own opcode address; below 0 or above 0xFFFF raises
`AddressCalculation`.
The base is settled by D29, the bounds are the spec's decision D27. -/
def Obligations.RelativeMode : Prop :=
  ∀ (s : State) (b : Byte),
    let t : Int := s.ispc + (if b.toNat < 128 then (b.toNat : Int) else b.toNat - 256)
    resolveAddress (.relative b) s = (if 0 ≤ t ∧ t ≤ 0xFFFF then .ok (t.toNat, s)
      else .error (.addressCalculation (s.withStatus (.faulted .addressCalculation))))

/-- 40 R147, R148, R149: the pointer modes are their 16-bit reads: `Indirect` faults at the pointer's first byte
that lies outside memory (60 R291 b), with nothing changed but the status,
`IndexedIndirect` reads at `(b + X) mod 256` and never faults, `IndirectIndexed` adds Y with a check; off
`RANDOM_ADDR` the pointer is the two cells, the high one at the next address.
That the high byte is at the next address, with no page wrap, is the spec's inference from R73. -/
def Obligations.PointerModes : Prop :=
  ∀ s : State,
    (∀ (w p : Word) (s1 : State), memRead16 w.toNat s = .ok (p, s1) →
      resolveAddress (.indirect w) s = .ok (p.toNat, s1)) ∧
    (∀ w : Word, memSize ≤ w.toNat →
      resolveAddress (.indirect w) s = .error (.outOfBounds w.toNat (s.withStatus (.faulted .outOfBounds)))) ∧
    (∀ w : Word, w.toNat + 1 = memSize →
      resolveAddress (.indirect w) s = .error (.outOfBounds (w.toNat + 1) (s.withStatus (.faulted .outOfBounds)))) ∧
    (∀ b : Byte, ∃ p s1, memRead16 ((b.toNat + s.x.toNat) % 256) s = .ok (p, s1) ∧
      resolveAddress (.indexedIndirect b) s = .ok (p.toNat, s1)) ∧
    (∀ b : Byte, ∃ p s1, memRead16 b.toNat s = .ok (p, s1) ∧
      resolveAddress (.indirectIndexed b) s = (if p.toNat + s.y.toNat ≤ 0xFFFF then .ok (p.toNat + s.y.toNat, s1)
        else .error (.addressCalculation (s1.withStatus (.faulted .addressCalculation))))) ∧
    (∀ a : Nat, a + 1 < memSize → a ≠ randomAddr → a + 1 ≠ randomAddr →
      ∃ p : Word, memRead16 a s = .ok (p, s) ∧
        p.toNat = (cellAt s.mem (a + 1)).toNat * 256 + (cellAt s.mem a).toNat)

/-- 40 R140, R141, R151, R152: an immediate operand is the byte itself; any other is the byte read at the resolved
address; neither resolving nor reading writes a register, a flag or a cell, whether it succeeds or faults (00 R13): at a
fault the status is all that differs, beside the draws. -/
def Obligations.OperandRule : Prop :=
  (∀ (b : Byte) (s : State), readOperand (.immediate b) s = .ok (b, s)) ∧
  (∀ m s a s1, resolveAddress m s = .ok (a, s1) →
    readOperand (.address m) s = memRead a s1 ∧ SameButDraws s s1) ∧
  (∀ m s f, resolveAddress m s = .error f →
    readOperand (.address m) s = .error f ∧ SameButDraws s (f.state.withStatus s.status)) ∧
  (∀ m s v s1, readOperand m s = .ok (v, s1) → SameButDraws s s1) ∧
  (∀ m s f, readOperand m s = .error f → SameButDraws s (f.state.withStatus s.status))

/-! ## Loads, stores, transfers -/

/-- 41 R160, R161, R162: the register takes the byte, Z and N are recomputed from it, and nothing else changes; a
fault of the operand is the instruction's, with register and flags unchanged. -/
def Obligations.LoadResults : Prop :=
  ∀ (i : Instr) (m : OperandMode) (s s1 : State) (v : Byte), i.mode = .operand m →
    (readOperand m s = .ok (v, s1) →
      let p := { s1.p with z := decide (v = 0), n := decide (128 ≤ v.toNat) }
      (i.mnemonic = .lda → exec i s = .next { s1 with a := v, p := p, ispc := s1.pc }) ∧
      (i.mnemonic = .ldx → exec i s = .next { s1 with x := v, p := p, ispc := s1.pc }) ∧
      (i.mnemonic = .ldy → exec i s = .next { s1 with y := v, p := p, ispc := s1.pc })) ∧
    (∀ f, readOperand m s = .error f → i.mnemonic ∈ [.lda, .ldx, .ldy] →
      exec i s = .fault f ∧ SameButDraws s (f.state.withStatus s.status))

/-- 41 R163, R164, R165: the register's byte is written at the resolved address, no flag changes; out of bounds it
faults with nothing written. -/
def Obligations.StoreResults : Prop :=
  ∀ (i : Instr) (m : AddrMode) (s : State), i.mode = .operand (.address m) →
    ∀ v, (i.mnemonic = .sta ∧ v = s.a) ∨ (i.mnemonic = .stx ∧ v = s.x) ∨ (i.mnemonic = .sty ∧ v = s.y) →
    (∀ a s1, resolveAddress m s = .ok (a, s1) → a < memSize →
      exec i s = .next { s1 with
        mem := setCell s1.mem a v, dirty := s1.dirty || (inDisplay a && cellAt s1.mem a != v), ispc := s1.pc }) ∧
    (∀ a s1, resolveAddress m s = .ok (a, s1) → memSize ≤ a →
      exec i s = .fault (.outOfBounds a (s1.withStatus (.faulted .outOfBounds)))) ∧
    (∀ f, resolveAddress m s = .error f →
      exec i s = .fault f ∧ SameButDraws s (f.state.withStatus s.status))

/-- 41 R166 to R171: transfers; every one but TXS recomputes Z and N.
That TXS writes no flag is the spec's decision D36. -/
def Obligations.TransferResults : Prop :=
  ∀ s : State,
    let zn := fun v : Byte => { s.p with z := decide (v = 0), n := decide (128 ≤ v.toNat) }
    exec .tax s = .next { s with x := s.a, p := zn s.a, ispc := s.pc } ∧
    exec .tay s = .next { s with y := s.a, p := zn s.a, ispc := s.pc } ∧
    exec .txa s = .next { s with a := s.x, p := zn s.x, ispc := s.pc } ∧
    exec .tya s = .next { s with a := s.y, p := zn s.y, ispc := s.pc } ∧
    exec .tsx s = .next { s with x := s.sp, p := zn s.sp, ispc := s.pc } ∧
    exec .txs s = .next { s with sp := s.x, ispc := s.pc }

/-! ## Arithmetic and logic -/

/-- 42 R181, R197: ADC is the 9-bit binary sum; C is its carry, V says the signed sum left -128 .. 127.
The sum and the signed range are the spec's inference from the two chained additions of R181. -/
def Obligations.AdcResult : Prop :=
  ∀ (i : Instr) (m : OperandMode) (s s1 : State) (v : Byte), i.mnemonic = .adc → i.mode = .operand m →
    (readOperand m s = .ok (v, s1) →
      let sum := s1.a.toNat + v.toNat + s1.p.c.toNat
      let signed := s1.a.toInt + v.toInt + s1.p.c.toNat
      exec i s = .next { s1 with
        a := BitVec.ofNat 8 sum
        p := { s1.p with
          c := decide (255 < sum), v := decide (signed < -128 ∨ 127 < signed)
          z := decide (sum % 256 = 0), n := decide (128 ≤ sum % 256) }
        ispc := s1.pc }) ∧
    (∀ f, readOperand m s = .error f → exec i s = .fault f)

/-- 42 R182, R197: SBC is the binary difference less the borrow `1 - C`; C says there was no borrow, V that the
signed difference left -128 .. 127.
The chain and the carry's polarity are the spec's decision D13; the difference and the signed range are its
inference. -/
def Obligations.SbcResult : Prop :=
  ∀ (i : Instr) (m : OperandMode) (s s1 : State) (v : Byte), i.mnemonic = .sbc → i.mode = .operand m →
    (readOperand m s = .ok (v, s1) →
      let d : Int := (s1.a.toNat : Int) - v.toNat - (1 - s1.p.c.toNat)
      let signed : Int := s1.a.toInt - v.toInt - (1 - s1.p.c.toNat)
      exec i s = .next { s1 with
        a := BitVec.ofInt 8 d
        p := { s1.p with
          c := decide (0 ≤ d), v := decide (signed < -128 ∨ 127 < signed)
          z := decide (d % 256 = 0), n := decide (128 ≤ d % 256) }
        ispc := s1.pc }) ∧
    (∀ f, readOperand m s = .error f → exec i s = .fault f)

/-- 42 R183, R184, R185: bitwise logic; Z and N from the result, C and V unchanged. -/
def Obligations.LogicResults : Prop :=
  ∀ (i : Instr) (m : OperandMode) (s s1 : State) (v r : Byte), i.mode = .operand m →
    ((i.mnemonic = .and ∧ ∀ k < 8, r.getLsbD k = (s1.a.getLsbD k && v.getLsbD k)) ∨
      (i.mnemonic = .ora ∧ ∀ k < 8, r.getLsbD k = (s1.a.getLsbD k || v.getLsbD k)) ∨
      (i.mnemonic = .eor ∧ ∀ k < 8, r.getLsbD k = (s1.a.getLsbD k ^^ v.getLsbD k))) →
    (readOperand m s = .ok (v, s1) →
      exec i s = .next { s1 with
        a := r, p := { s1.p with z := decide (r = 0), n := decide (128 ≤ r.toNat) }, ispc := s1.pc }) ∧
    (∀ f, readOperand m s = .error f → exec i s = .fault f)

/-- 42 R186: BIT writes Z from the AND, N and V from the operand's own bits, and no register. -/
def Obligations.BitResult : Prop :=
  ∀ (i : Instr) (m : OperandMode) (s s1 : State) (v : Byte), i.mnemonic = .bit → i.mode = .operand m →
    (readOperand m s = .ok (v, s1) →
      exec i s = .next { s1 with
        p := { s1.p with
          z := decide (s1.a &&& v = 0), n := decide (128 ≤ v.toNat), v := decide (64 ≤ v.toNat % 128) }
        ispc := s1.pc }) ∧
    (∀ f, readOperand m s = .error f → exec i s = .fault f)

/-- 42 R187 to R190: compares: C is unsigned "at least", Z equality, N bit 7 of the wrapped difference; no register,
no V. -/
def Obligations.CompareResults : Prop :=
  ∀ (i : Instr) (m : OperandMode) (s s1 : State) (v reg : Byte), i.mode = .operand m →
    ((i.mnemonic = .cmp ∧ reg = s1.a) ∨ (i.mnemonic = .cpx ∧ reg = s1.x) ∨ (i.mnemonic = .cpy ∧ reg = s1.y)) →
    (readOperand m s = .ok (v, s1) →
      exec i s = .next { s1 with
        p := { s1.p with
          c := decide (v.toNat ≤ reg.toNat), z := decide (reg = v)
          n := decide (128 ≤ ((reg.toNat : Int) - v.toNat) % 256) }
        ispc := s1.pc }) ∧
    (∀ f, readOperand m s = .error f → exec i s = .fault f)

/-- 42 R191, R192: INC and DEC on memory: the cell steps by one modulo 256, Z and N follow the value written, C and
V stay; the fault, if any, comes at the read and nothing is written.
Z and N are the spec's decision D34. -/
def Obligations.IncDecMemory : Prop :=
  ∀ (i : Instr) (m : AddrMode) (s s1 s2 : State) (a : Nat) (v r : Byte), i.mode = .operand (.address m) →
    ((i.mnemonic = .inc ∧ r.toNat = (v.toNat + 1) % 256) ∨ (i.mnemonic = .dec ∧ r.toNat = (v.toNat + 255) % 256)) →
    (resolveAddress m s = .ok (a, s1) → memRead a s1 = .ok (v, s2) →
      exec i s = .next { s2 with
        mem := setCell s2.mem a r, dirty := s2.dirty || (inDisplay a && cellAt s2.mem a != r)
        p := { s2.p with z := decide (r = 0), n := decide (128 ≤ r.toNat) }, ispc := s2.pc }) ∧
    (∀ f, resolveAddress m s = .error f → exec i s = .fault f) ∧
    (∀ f, resolveAddress m s = .ok (a, s1) → memRead a s1 = .error f → exec i s = .fault f)

/-- 42 R193 to R196: INX, INY, DEX, DEY step a register modulo 256; Z and N follow, C and V stay. -/
def Obligations.IncDecRegisters : Prop :=
  ∀ (s : State) (r : Byte),
    let p := { s.p with z := decide (r = 0), n := decide (128 ≤ r.toNat) }
    (r.toNat = (s.x.toNat + 1) % 256 → exec .inx s = .next { s with x := r, p := p, ispc := s.pc }) ∧
    (r.toNat = (s.y.toNat + 1) % 256 → exec .iny s = .next { s with y := r, p := p, ispc := s.pc }) ∧
    (r.toNat = (s.x.toNat + 255) % 256 → exec .dex s = .next { s with x := r, p := p, ispc := s.pc }) ∧
    (r.toNat = (s.y.toNat + 255) % 256 → exec .dey s = .next { s with y := r, p := p, ispc := s.pc })

/-! ## Shifts -/

/-- 43 R200 to R204: the result of a shift or rotate by one bit, C from the bit shifted out, the old carry into the
vacated bit of a rotate, Z and N from the result; on A, and on the byte at a resolved address, where both faults come
before any write. Z and N of the memory form are the spec's decision D34. -/
def Obligations.ShiftResults : Prop :=
  (∀ (i : Instr) (s : State) (r : Byte) (out : Bool), i.mode = .accumulator →
    ((i.mnemonic = .asl ∧ r.toNat = s.a.toNat * 2 % 256 ∧ out = decide (128 ≤ s.a.toNat)) ∨
      (i.mnemonic = .lsr ∧ r.toNat = s.a.toNat / 2 ∧ out = decide (s.a.toNat % 2 = 1)) ∨
      (i.mnemonic = .rol ∧ r.toNat = s.a.toNat * 2 % 256 + s.p.c.toNat ∧ out = decide (128 ≤ s.a.toNat)) ∨
      (i.mnemonic = .ror ∧ r.toNat = s.a.toNat / 2 + s.p.c.toNat * 128 ∧ out = decide (s.a.toNat % 2 = 1))) →
    exec i s = .next { s with
      a := r, p := { s.p with c := out, z := decide (r = 0), n := decide (128 ≤ r.toNat) }, ispc := s.pc }) ∧
  (∀ (i : Instr) (m : AddrMode) (s s1 s2 : State) (a : Nat) (v r : Byte) (out : Bool),
    i.mode = .operand (.address m) →
    ((i.mnemonic = .asl ∧ r.toNat = v.toNat * 2 % 256 ∧ out = decide (128 ≤ v.toNat)) ∨
      (i.mnemonic = .lsr ∧ r.toNat = v.toNat / 2 ∧ out = decide (v.toNat % 2 = 1)) ∨
      (i.mnemonic = .rol ∧ r.toNat = v.toNat * 2 % 256 + s.p.c.toNat ∧ out = decide (128 ≤ v.toNat)) ∨
      (i.mnemonic = .ror ∧ r.toNat = v.toNat / 2 + s.p.c.toNat * 128 ∧ out = decide (v.toNat % 2 = 1))) →
    (resolveAddress m s = .ok (a, s1) → memRead a s1 = .ok (v, s2) →
      exec i s = .next { s2 with
        mem := setCell s2.mem a r, dirty := s2.dirty || (inDisplay a && cellAt s2.mem a != r)
        p := { s2.p with c := out, z := decide (r = 0), n := decide (128 ≤ r.toNat) }, ispc := s2.pc }) ∧
    (∀ f, resolveAddress m s = .error f → exec i s = .fault f) ∧
    (∀ f, resolveAddress m s = .ok (a, s1) → memRead a s1 = .error f → exec i s = .fault f))

/-! ## Control transfer -/

/-- 44 R210 to R218: a branch that is not taken advances and cannot fault; a taken one goes to `ISPC` plus the signed
displacement, faulting with `AddressCalculation` below 0 and `InvalidTarget` at or above the end of memory.
That only a taken branch resolves its address is the spec's decision D14; its bounds are D27. -/
def Obligations.BranchResults : Prop :=
  ∀ (i : Instr) (s : State) (b : Byte) (flag : FlagName) (want : Bool),
    branchTest i.mnemonic = some (flag, want) → i.mode = .operand (.address (.relative b)) →
    (s.p.get flag ≠ want → exec i s = .next { s with ispc := s.pc }) ∧
    (s.p.get flag = want →
      let t : Int := s.ispc + (if b.toNat < 128 then (b.toNat : Int) else b.toNat - 256)
      (0 ≤ t → t < 2048 → exec i s = .next { s with pc := t.toNat, ispc := t.toNat }) ∧
      (t < 0 ∨ 0xFFFF < t → exec i s = .fault (.addressCalculation (s.withStatus (.faulted .addressCalculation)))) ∧
      (2048 ≤ t → t ≤ 0xFFFF →
        exec i s = .fault (.invalidTarget t.toNat (s.withStatus (.faulted .invalidTarget)))))

/-- 44 R219: JMP goes to its operand, or to the word its operand points to; a target outside memory faults with
`InvalidTarget`, a pointer outside memory with `OutOfBounds` of its first byte there, nothing changed but the status. -/
def Obligations.JmpResult : Prop :=
  ∀ (w : Word) (s : State),
    (w.toNat < memSize → exec (.jmpAbs w) s = .next { s with pc := w.toNat, ispc := w.toNat }) ∧
    (memSize ≤ w.toNat →
      exec (.jmpAbs w) s = .fault (.invalidTarget w.toNat (s.withStatus (.faulted .invalidTarget)))) ∧
    (∀ t s1, memRead16 w.toNat s = .ok (t, s1) → t.toNat < memSize →
      exec (.jmpInd w) s = .next { s1 with pc := t.toNat, ispc := t.toNat }) ∧
    (∀ t s1, memRead16 w.toNat s = .ok (t, s1) → memSize ≤ t.toNat →
      exec (.jmpInd w) s = .fault (.invalidTarget t.toNat (s1.withStatus (.faulted .invalidTarget)))) ∧
    (memSize ≤ w.toNat →
      exec (.jmpInd w) s = .fault (.outOfBounds w.toNat (s.withStatus (.faulted .outOfBounds)))) ∧
    (w.toNat + 1 = memSize →
      exec (.jmpInd w) s = .fault (.outOfBounds (w.toNat + 1) (s.withStatus (.faulted .outOfBounds))))

/-- 44 R220: JSR pushes the next instruction's address, high byte first, and goes; the faults keep what was done.
The pushed address is the spec's decision D15; the slots are D4 and D5. -/
def Obligations.JsrResult : Prop :=
  ∀ (s : State) (w : Word),
    let hi := BitVec.ofNat 8 (s.pc / 256)
    let lo := BitVec.ofNat 8 s.pc
    let s1 := (storeCell (0x100 + s.sp.toNat) hi s).withSp (s.sp - 1)
    let s2 := (storeCell (0x100 + s.sp.toNat - 1) lo s1).withSp (s.sp - 2)
    (2 ≤ s.sp.toNat → w.toNat < memSize → exec (.jsr w) s = .next { s2 with pc := w.toNat, ispc := w.toNat }) ∧
    (2 ≤ s.sp.toNat → memSize ≤ w.toNat →
      exec (.jsr w) s = .fault (.invalidTarget w.toNat (s2.withStatus (.faulted .invalidTarget)))) ∧
    (s.sp = 0x01 → exec (.jsr w) s = .fault (.stackOverflow (s1.withStatus (.faulted .stackOverflow)))) ∧
    (s.sp = 0x00 → exec (.jsr w) s = .fault (.stackOverflow (s.withStatus (.faulted .stackOverflow))))

/-- 44 R221: RTS goes to the popped address, low byte popped first, with nothing added.
The slots are the spec's decisions D4 and D5. -/
def Obligations.RtsResult : Prop :=
  ∀ s : State,
    let lo := cellAt s.mem (0x100 + s.sp.toNat + 1)
    let hi := cellAt s.mem (0x100 + s.sp.toNat + 2)
    let t := hi.toNat * 256 + lo.toNat
    let s2 := s.withSp (s.sp + 2)
    (s.sp.toNat ≤ 253 → t < memSize → exec .rts s = .next { s2 with pc := t, ispc := t }) ∧
    (s.sp.toNat ≤ 253 → memSize ≤ t →
      exec .rts s = .fault (.invalidTarget t (s2.withStatus (.faulted .invalidTarget)))) ∧
    (s.sp = 0xFE →
      exec .rts s = .fault (.stackUnderflow ((s.withSp 0xFF).withStatus (.faulted .stackUnderflow)))) ∧
    (s.sp = 0xFF → exec .rts s = .fault (.stackUnderflow (s.withStatus (.faulted .stackUnderflow))))

/-- A call and the return at its target: the machine is back after the JSR, with the stack pointer as it was
(44 R220, R221; 70 R343). -/
def Obligations.JsrThenRts : Prop :=
  ∀ (s t : State) (w : Word) (pc : Nat), exec (.jsr w) s = .next t → s.pc < memSize →
    ∃ u, exec .rts (t.withPc pc) = .next u ∧ u.pc = s.pc ∧ u.ispc = s.pc ∧ u.sp = s.sp ∧ u.a = s.a ∧ u.p = s.p

/-! ## Stack, flags, system -/

/-- 10 R44, 45 R230, R232: PHA and PHP write the slot SP names and decrement SP; PHP's copy has BREAK set and bit 5
clear, the flags themselves unchanged; at SP = 0x00 they fault with nothing written.
The slots are the spec's decisions D4 and D5; the flag byte is D6, PHP's override D7. -/
def Obligations.PushResults : Prop :=
  ∀ s : State,
    let f := (if s.p.n then 128 else 0) + (if s.p.v then 64 else 0) + 16 + (if s.p.d then 8 else 0) +
      (if s.p.i then 4 else 0) + (if s.p.z then 2 else 0) + (if s.p.c then 1 else 0)
    let pushed := fun v : Byte => ({ s with
      mem := setCell s.mem (0x100 + s.sp.toNat) v
      dirty := s.dirty || (inDisplay (0x100 + s.sp.toNat) && cellAt s.mem (0x100 + s.sp.toNat) != v)
      sp := s.sp - 1, ispc := s.pc } : State)
    (s.sp ≠ 0x00 → exec .pha s = .next (pushed s.a) ∧ exec .php s = .next (pushed (BitVec.ofNat 8 f))) ∧
    (s.sp = 0x00 →
      exec .pha s = .fault (.stackOverflow (s.withStatus (.faulted .stackOverflow))) ∧
      exec .php s = .fault (.stackOverflow (s.withStatus (.faulted .stackOverflow))))

/-- 10 R45, R50, 45 R231, R233: PLA and PLP increment SP and read the new slot; PLA recomputes Z and N, PLP loads all
seven flags, BREAK too, and drops bit 5; at SP = 0xFF they fault with nothing changed.
The slots are the spec's decisions D4 and D5; the flag byte is D6. -/
def Obligations.PullResults : Prop :=
  ∀ s : State,
    let v := cellAt s.mem (0x100 + s.sp.toNat + 1)
    let bit := fun k => decide (v.toNat / 2 ^ k % 2 = 1)
    (s.sp ≠ 0xFF →
      exec .pla s = .next { s with
        a := v, sp := s.sp + 1, p := { s.p with z := decide (v = 0), n := bit 7 }, ispc := s.pc } ∧
      exec .plp s = .next { s with
        sp := s.sp + 1, ispc := s.pc
        p := { n := bit 7, v := bit 6, b := bit 4, d := bit 3, i := bit 2, z := bit 1, c := bit 0 } }) ∧
    (s.sp = 0xFF →
      exec .pla s = .fault (.stackUnderflow (s.withStatus (.faulted .stackUnderflow))) ∧
      exec .plp s = .fault (.stackUnderflow (s.withStatus (.faulted .stackUnderflow))))

/-- 10 R46, R47: pushing a 16-bit value and popping it yields the value, with SP restored. -/
def Obligations.Push16ThenPop16 : Prop :=
  ∀ (s t : State) (w : Word), push16 w s = .ok t → pop16 t = .ok (w, t.withSp s.sp)

/-- 10 R44, 70 R342: from the empty stack exactly 255 pushes succeed and the 256th raises `StackOverflow`; the cell at
`STACK_BASE` is never written.
The count is the spec's inference from R44 (D5). -/
def Obligations.StackHolds255 : Prop :=
  ∀ (s : State) (bytes : List Byte), s.sp = 0xFF →
    (bytes.length ≤ 255 → ∃ t, bytes.foldlM (fun s v => push8 v s) s = .ok t ∧
      t.sp.toNat = 255 - bytes.length ∧ cellAt t.mem 0x100 = cellAt s.mem 0x100) ∧
    (255 < bytes.length → ∃ t, bytes.foldlM (fun s v => push8 v s) s = .error (.stackOverflow t))

/-- PHP and then PLP: every flag but B is as it was, and B is 1 (45 R232, R233). -/
def Obligations.PhpThenPlp : Prop :=
  ∀ (s t : State) (pc : Nat), exec .php s = .next t →
    ∃ u, exec .plp (t.withPc pc) = .next u ∧ u.p = { s.p with b := true } ∧ u.sp = s.sp

/-- 45 R234 to R241: each flag instruction writes its one flag and advances; NOP only advances. -/
def Obligations.FlagNopResults : Prop :=
  ∀ s : State,
    exec .clc s = .next { s with p := { s.p with c := false }, ispc := s.pc } ∧
    exec .sec s = .next { s with p := { s.p with c := true }, ispc := s.pc } ∧
    exec .cli s = .next { s with p := { s.p with i := false }, ispc := s.pc } ∧
    exec .sei s = .next { s with p := { s.p with i := true }, ispc := s.pc } ∧
    exec .clv s = .next { s with p := { s.p with v := false }, ispc := s.pc } ∧
    exec .cld s = .next { s with p := { s.p with d := false }, ispc := s.pc } ∧
    exec .sed s = .next { s with p := { s.p with d := true }, ispc := s.pc } ∧
    exec .nop s = .next { s with ispc := s.pc }

/-- 45 R251, 46 R264 (a): HALT changes the status and nothing else, and the step that fetched the byte 0xFF ends
there: no host window, and neither counter committed (the spec's decision D28). -/
def Obligations.HaltStep : Prop :=
  (∀ s : State, exec .halt s = .next { s with status := .stopped }) ∧
  (∀ s s1 : State, s.status = .running → memRead s.pc s = .ok (0xFF, s1) →
    step s = .next ((s1.withPc (s.pc + 1)).withStatus .stopped))

/-- 45 R249, 60 R303: BRK pushes PC (high byte first) and the flag byte with BREAK forced set in the copy, sets I and
nothing else in P, and goes to the address at `IRQ_VECTOR`, wherever that is; the faults keep what was done.
The slots are the spec's decisions D4 and D5; `IRQ_VECTOR` is OPEN, D8 (log entry 5). -/
def Obligations.BrkResult : Prop :=
  ∀ s : State,
    let s1 := (storeCell (0x100 + s.sp.toNat) (BitVec.ofNat 8 (s.pc / 256)) s).withSp (s.sp - 1)
    let s2 := (storeCell (0x100 + s.sp.toNat - 1) (BitVec.ofNat 8 s.pc) s1).withSp (s.sp - 2)
    let s3 := (storeCell (0x100 + s.sp.toNat - 2) (flagsByte s.p ||| 0x10) s2).withSp (s.sp - 3)
    let s4 := s3.withP { s.p with i := true }
    (3 ≤ s.sp.toNat →
      (∀ t s5, memRead16 Config.irqVector.toNat s4 = .ok (t, s5) → t.toNat < memSize →
        exec .brk s = .next { s5 with pc := t.toNat, ispc := t.toNat }) ∧
      (∀ t s5, memRead16 Config.irqVector.toNat s4 = .ok (t, s5) → memSize ≤ t.toNat →
        exec .brk s = .fault (.invalidTarget t.toNat (s5.withStatus (.faulted .invalidTarget)))) ∧
      (∀ f, memRead16 Config.irqVector.toNat s4 = .error f → exec .brk s = .fault f)) ∧
    (s.sp = 0x02 → exec .brk s = .fault (.stackOverflow (s2.withStatus (.faulted .stackOverflow)))) ∧
    (s.sp = 0x01 → exec .brk s = .fault (.stackOverflow (s1.withStatus (.faulted .stackOverflow)))) ∧
    (s.sp = 0x00 → exec .brk s = .fault (.stackOverflow (s.withStatus (.faulted .stackOverflow))))

/-- 45 R250, 60 R305: RTI loads all seven flags from the popped byte, then pops PC and goes there unmodified; an
underflow after the first pop keeps the restored flags.
The slots are the spec's decisions D4 and D5; the flag byte is D6. -/
def Obligations.RtiResult : Prop :=
  ∀ s : State,
    let s1 := (s.withSp (s.sp + 1)).withP (flagsFromByte (cellAt s.mem (0x100 + s.sp.toNat + 1)))
    let t := (cellAt s.mem (0x100 + s.sp.toNat + 3)).toNat * 256 + (cellAt s.mem (0x100 + s.sp.toNat + 2)).toNat
    let s3 := s1.withSp (s.sp + 3)
    (s.sp.toNat ≤ 252 → t < memSize → exec .rti s = .next { s3 with pc := t, ispc := t }) ∧
    (s.sp.toNat ≤ 252 → memSize ≤ t →
      exec .rti s = .fault (.invalidTarget t (s3.withStatus (.faulted .invalidTarget)))) ∧
    (s.sp = 0xFD →
      exec .rti s = .fault (.stackUnderflow ((s1.withSp 0xFF).withStatus (.faulted .stackUnderflow)))) ∧
    (s.sp = 0xFE → exec .rti s = .fault (.stackUnderflow (s1.withStatus (.faulted .stackUnderflow)))) ∧
    (s.sp = 0xFF → exec .rti s = .fault (.stackUnderflow (s.withStatus (.faulted .stackUnderflow))))

/-- A handler that returns at once: RTI after BRK resumes at the byte after BRK's pad, with the flags of before, B set,
and the stack pointer as it was, whatever the handler left in A, X, Y (60 R305). -/
def Obligations.BrkThenRti : Prop :=
  ∀ (s t : State) (a x y : Byte) (pc : Nat) (p : Flags), exec .brk s = .next t → s.pc < memSize →
    ∃ u, exec .rti { t with a := a, x := x, y := y, pc := pc, p := p } = .next u ∧
      u.pc = s.pc ∧ u.ispc = s.pc ∧ u.sp = s.sp ∧ u.p = { s.p with b := true } ∧ u.a = a ∧ u.x = x ∧ u.y = y

/-- 60 R295, R296: who raises the stack faults, and when: a push needs SP above 0, a pop SP below 0xFF; nothing else
raises them. -/
def Obligations.StackFaultsExactly : Prop :=
  ∀ (i : Instr) (s : State),
    ((∃ t, exec i s = .fault (.stackOverflow t)) ↔
      (i.mnemonic ∈ [.pha, .php] ∧ s.sp = 0x00) ∨ (i.mnemonic = .jsr ∧ s.sp.toNat < 2) ∨
        (i.mnemonic = .brk ∧ s.sp.toNat < 3)) ∧
    ((∃ t, exec i s = .fault (.stackUnderflow t)) ↔
      (i.mnemonic ∈ [.pla, .plp] ∧ s.sp = 0xFF) ∨ (i.mnemonic = .rts ∧ 253 < s.sp.toNat) ∨
        (i.mnemonic = .rti ∧ 252 < s.sp.toNat))

/-! ## Frames and whole-machine rules -/

/-- 10 R41: no instruction writes a flag the table does not give it. -/
def Obligations.FlagFrame : Prop :=
  ∀ (i : Instr) (s t : State) (f : FlagName), exec i s = .next t → f ∉ flagsWritten i.mnemonic → t.p.get f = s.p.get f

/-- 10 R31 to R34: which instructions can change A, X, Y and SP. -/
def Obligations.RegisterFrame : Prop :=
  ∀ (i : Instr) (s t : State), exec i s = .next t →
    (t.a ≠ s.a → i.mnemonic ∈ [.lda, .txa, .tya, .pla, .adc, .sbc, .and, .ora, .eor] ∨
      (i.mnemonic ∈ [.asl, .lsr, .rol, .ror] ∧ i.mode = .accumulator)) ∧
    (t.x ≠ s.x → i.mnemonic ∈ [.ldx, .tax, .tsx, .inx, .dex]) ∧
    (t.y ≠ s.y → i.mnemonic ∈ [.ldy, .tay, .iny, .dey]) ∧
    (t.sp ≠ s.sp → i.mnemonic ∈ [.txs, .pha, .pla, .php, .plp, .jsr, .rts, .brk, .rti])

/-- Which bytes of memory can change: none, but the one byte at the address that the destination resolves to (stores
and read-modify-writes), or the pushed slots counted down from SP; `dirty` is never cleared, and is left alone where
no byte is stored.
Where a pushed slot lies, `0x100` plus SP counted down, is the spec's decisions D4 and D5 (log entry 16). -/
def Obligations.MemoryFrame : Prop :=
  ∀ (i : Instr) (s t : State), exec i s = .next t →
    (s.dirty = true → t.dirty = true) ∧
    (i.mnemonic.pushes = false → (∀ m, i.mode = .operand (.address m) → i.mnemonic.stores = false ∧
      i.mnemonic.modifies = false) → t.dirty = s.dirty ∧ ∀ b, cellAt t.mem b = cellAt s.mem b) ∧
    (∀ m a s1, i.mnemonic.stores = true ∨ i.mnemonic.modifies = true → i.mode = .operand (.address m) →
      resolveAddress m s = .ok (a, s1) → ∀ b, b ≠ a → cellAt t.mem b = cellAt s.mem b) ∧
    (i.mnemonic ∈ [.pha, .php] → ∀ b, b ≠ 0x100 + s.sp.toNat → cellAt t.mem b = cellAt s.mem b) ∧
    (i.mnemonic = .jsr → ∀ b, b + 1 < 0x100 + s.sp.toNat ∨ 0x100 + s.sp.toNat < b →
      cellAt t.mem b = cellAt s.mem b) ∧
    (i.mnemonic = .brk → ∀ b, b + 2 < 0x100 + s.sp.toNat ∨ 0x100 + s.sp.toNat < b →
      cellAt t.mem b = cellAt s.mem b)

/-- What no instruction touches: the snapshot, `running`, the host's moves, and, but for HALT, the status; the draws are
only ever consumed from the front.
That no instruction sets `running` is 46 R261 and R268; the draws and the host's moves are the model's own fields (log
entries 6 and 7, DESIGN CHOICE), and that the snapshot is held and only `reset` writes it is log entry 9 (DEDUCED). -/
def Obligations.SequencerFrame : Prop :=
  ∀ (i : Instr) (s t : State), exec i s = .next t →
    t.snapshot = s.snapshot ∧ t.running = s.running ∧ t.host = s.host ∧ t.hostRest = s.hostRest ∧
    t.status = (if i.mnemonic = .halt then .stopped else s.status) ∧
    t.draws <:+ s.draws ∧ s.drawCount ≤ t.drawCount

/-- 46 R263: which commit each instruction uses: `Goto` sets both counters to an address in memory, `Advance` copies
PC, HALT commits nothing. -/
def Obligations.CommitRule : Prop :=
  ∀ (i : Instr) (s t : State), exec i s = .next t →
    (i.mnemonic = .halt → t.pc = s.pc ∧ t.ispc = s.ispc) ∧
    (i.mnemonic.alwaysGoes = true → t.ispc = t.pc ∧ t.pc < memSize) ∧
    (∀ f want, branchTest i.mnemonic = some (f, want) →
      t.ispc = t.pc ∧ (s.p.get f = want → t.pc < memSize) ∧ (s.p.get f ≠ want → t.pc = s.pc)) ∧
    (i.mnemonic ≠ .halt → i.mnemonic.alwaysGoes = false → branchTest i.mnemonic = none →
      t.pc = s.pc ∧ t.ispc = s.pc)

/-- On a fault of an operand access no register, flag, cell or counter has changed (41, 42, 43: "On a fault ... are
unchanged"): loads, stores, ALU and read-modify-write instructions alike. -/
def Obligations.OperandFaultChangesNothing : Prop :=
  ∀ (i : Instr) (s : State) (f : Fault),
    i.mnemonic.readsOperand = true ∨ i.mnemonic.stores = true ∨ i.mnemonic.modifies = true → exec i s = .fault f →
    SameButDraws s (f.state.withStatus s.status) ∧
      ((∃ a, memSize ≤ a ∧ f = .outOfBounds a f.state) ∨ f = .addressCalculation f.state)

/-- The forms whose rules say "Faults: none" never fault: one-byte register and flag instructions, NOP, HALT, the
accumulator shifts, immediate operands, and zero-page operands, which cannot leave memory (40 R143).
The zero-page case is the spec's inference. -/
def Obligations.FormsThatNeverFault : Prop :=
  ∀ (i : Instr) (s : State),
    (i.mode = .implied ∧ i.mnemonic.pushes = false ∧ i.mnemonic.pops = false) ∨ i.mode = .accumulator ∨
      (∃ b, i.mode = .operand (.immediate b)) ∨ (∃ b idx, i.mode = .operand (.address (.zeroPage b idx))) →
    Safe (exec i s)

/-- 42 R197, 60 R301: D and I are inert: but for the instructions that store, load or set a flag byte or those flags,
an instruction does the same whatever D and I are, and leaves them alone. -/
def Obligations.DecimalAndInterruptDisableAreInert : Prop :=
  ∀ (i : Instr) (s t : State) (d n : Bool),
    i.mnemonic ∉ [.php, .brk, .plp, .rti, .sed, .cld, .sei, .cli] → exec i s = .next t →
    exec i { s with p := { s.p with d := d, i := n } } = .next { t with p := { t.p with d := d, i := n } }
end

