-- ==== Sys2Proof/Laws/Memory.lean ====
section
/-! SUPPORT. Laws of memory cells: read after write, a write leaves every other cell alone, and every write keeps
the canonical form. -/

namespace Sys2Proof.Machine

theorem cellAt_filter_same (m : Memory) (a : Nat) : cellAt (m.filter fun c => c.1 != a) a = 0 := by
  induction m with
  | nil => rfl
  | cons c m ih =>
    by_cases h : c.1 = a
    · simpa [List.filter_cons, h] using ih
    · simpa [List.filter_cons, h, cellAt] using ih

theorem cellAt_filter_other (m : Memory) {a b : Nat} (hne : b ≠ a) :
    cellAt (m.filter fun c => c.1 != a) b = cellAt m b := by
  induction m with
  | nil => rfl
  | cons c m ih =>
    by_cases h : c.1 = a
    · have : c.1 ≠ b := fun hb => hne (hb.symm.trans h)
      simpa [List.filter_cons, h, cellAt, Ne.symm hne] using ih
    · simp only [List.filter_cons, bne_iff_ne, ne_eq, h, not_false_eq_true, if_true, cellAt]
      rw [ih]

/-- A cell put into a memory that does not list its address is read there, and nowhere else. -/
theorem cellAt_insertCell (c : Host.Cell) (m : Memory) (b : Nat) (hm : ∀ d ∈ m, d.1 ≠ c.1) :
    cellAt (insertCell c m) b = if c.1 = b then c.2 else cellAt m b := by
  induction m with
  | nil => rfl
  | cons d m ih =>
    have ih := ih fun e he => hm e (List.mem_cons_of_mem _ he)
    have hd : d.1 ≠ c.1 := hm d List.mem_cons_self
    unfold insertCell
    split
    · rfl
    · simp only [cellAt, ih]
      split <;> split <;> simp_all

/-- What a cell holds after a write: the one law of `setCell`. -/
theorem cellAt_setCell (m : Memory) (a b : Nat) (v : Byte) :
    cellAt (setCell m a v) b = if b = a then v else cellAt m b := by
  have hm : ∀ d ∈ (m.filter fun c => c.1 != a), d.1 ≠ (a, v).1 := by simp
  unfold setCell
  by_cases hb : b = a
  · subst hb
    by_cases hv : v = 0
    · simp [hv, cellAt_filter_same]
    · dsimp only
      rw [if_neg hv, cellAt_insertCell _ _ _ hm]
      simp
  · by_cases hv : v = 0
    · simp [hv, hb, cellAt_filter_other]
    · dsimp only
      rw [if_neg hv, cellAt_insertCell _ _ _ hm, cellAt_filter_other m hb]
      simp [hb, Ne.symm hb]

@[simp] theorem cellAt_setCell_same (m : Memory) (a : Nat) (v : Byte) : cellAt (setCell m a v) a = v := by
  simp [cellAt_setCell]

theorem cellAt_setCell_other (m : Memory) {a b : Nat} (v : Byte) (h : b ≠ a) :
    cellAt (setCell m a v) b = cellAt m b := by
  simp [cellAt_setCell, h]

/-- The canonical form, as propositions. -/
theorem wf_iff (size : Nat) (m : Memory) :
    Memory.wf size m = true ↔
      (m.Pairwise fun c d => c.1 < d.1) ∧ ∀ c ∈ m, c.2 ≠ 0 ∧ c.1 < size := by
  simp [Memory.wf]

theorem mem_insertCell (c d : Host.Cell) (m : Memory) : d ∈ insertCell c m ↔ d = c ∨ d ∈ m := by
  induction m with
  | nil => simp [insertCell]
  | cons e m ih =>
    unfold insertCell
    split
    · simp
    · simp [ih]; tauto

theorem insertCell_pairwise (c : Host.Cell) (m : Memory) (hm : ∀ d ∈ m, d.1 ≠ c.1)
    (h : m.Pairwise fun c d => c.1 < d.1) : (insertCell c m).Pairwise fun c d => c.1 < d.1 := by
  induction m with
  | nil => simp [insertCell]
  | cons e m ih =>
    obtain ⟨he, hp⟩ := List.pairwise_cons.mp h
    have hne : e.1 ≠ c.1 := hm e List.mem_cons_self
    unfold insertCell
    split
    · rename_i hlt
      refine List.pairwise_cons.mpr ⟨fun d hd => ?_, h⟩
      rcases List.mem_cons.mp hd with rfl | hd
      · exact hlt
      · exact lt_trans hlt (he d hd)
    · rename_i hlt
      refine List.pairwise_cons.mpr ⟨fun d hd => ?_, ih (fun d hd => hm d (List.mem_cons_of_mem _ hd)) hp⟩
      rcases (mem_insertCell c d m).mp hd with rfl | hd
      · omega
      · exact he d hd

/-- A write below `size` keeps the canonical form. -/
theorem setCell_wf {size : Nat} {m : Memory} {a : Nat} (v : Byte) (h : Memory.wf size m = true) (ha : a < size) :
    Memory.wf size (setCell m a v) = true := by
  rw [wf_iff] at h ⊢
  obtain ⟨hp, hc⟩ := h
  have hpf : (m.filter fun c => c.1 != a).Pairwise fun c d => c.1 < d.1 := hp.filter _
  have hcf : ∀ c ∈ m.filter (fun c => c.1 != a), c.2 ≠ 0 ∧ c.1 < size :=
    fun c hcm => hc c (List.mem_filter.mp hcm).1
  unfold setCell
  by_cases hv : v = 0
  · simpa [hv] using ⟨hpf, by simpa using hcf⟩
  · simp only [hv, if_false]
    refine ⟨insertCell_pairwise _ _ (by simp) hpf, fun c hcm => ?_⟩
    rcases (mem_insertCell _ _ _).mp hcm with rfl | hcm
    · exact ⟨hv, ha⟩
    · exact hcf c hcm

/-- Writing bytes that fit keeps the canonical form. -/
theorem setCells_wf {size : Nat} (bytes : List Byte) {m : Memory} {a : Nat} (h : Memory.wf size m = true)
    (ha : a + bytes.length ≤ size) : Memory.wf size (setCells m a bytes) = true := by
  induction bytes generalizing m a with
  | nil => exact h
  | cons v vs ih =>
    simp only [List.length_cons] at ha
    exact ih (setCell_wf v h (by omega)) (by omega)

theorem wf_nil (size : Nat) : Memory.wf size [] = true := rfl

/-- Memory right after reset is in canonical form. -/
theorem reset_mem_wf : Memory.wf memSize State.reset.mem = true := rfl

end Sys2Proof.Machine
end

