-- ==== Sys2Proof/Laws/State.lean ====
section
/-! SUPPORT. What each field of the state is after each update: one lemma per field per update. -/

namespace Sys2Proof.Machine

@[simp] theorem State.withA_a (s : State) (v : Byte) : (s.withA v).a = v := rfl
@[simp] theorem State.withA_x (s : State) (v : Byte) : (s.withA v).x = s.x := rfl
@[simp] theorem State.withA_y (s : State) (v : Byte) : (s.withA v).y = s.y := rfl
@[simp] theorem State.withA_sp (s : State) (v : Byte) : (s.withA v).sp = s.sp := rfl
@[simp] theorem State.withA_pc (s : State) (v : Byte) : (s.withA v).pc = s.pc := rfl
@[simp] theorem State.withA_ispc (s : State) (v : Byte) : (s.withA v).ispc = s.ispc := rfl
@[simp] theorem State.withA_p (s : State) (v : Byte) : (s.withA v).p = s.p := rfl
@[simp] theorem State.withA_mem (s : State) (v : Byte) : (s.withA v).mem = s.mem := rfl
@[simp] theorem State.withA_dirty (s : State) (v : Byte) : (s.withA v).dirty = s.dirty := rfl
@[simp] theorem State.withA_running (s : State) (v : Byte) : (s.withA v).running = s.running := rfl
@[simp] theorem State.withA_status (s : State) (v : Byte) : (s.withA v).status = s.status := rfl
@[simp] theorem State.withA_snapshot (s : State) (v : Byte) : (s.withA v).snapshot = s.snapshot := rfl
@[simp] theorem State.withA_draws (s : State) (v : Byte) : (s.withA v).draws = s.draws := rfl
@[simp] theorem State.withA_drawCount (s : State) (v : Byte) : (s.withA v).drawCount = s.drawCount := rfl
@[simp] theorem State.withA_host (s : State) (v : Byte) : (s.withA v).host = s.host := rfl
@[simp] theorem State.withA_hostRest (s : State) (v : Byte) : (s.withA v).hostRest = s.hostRest := rfl

@[simp] theorem State.withX_a (s : State) (v : Byte) : (s.withX v).a = s.a := rfl
@[simp] theorem State.withX_x (s : State) (v : Byte) : (s.withX v).x = v := rfl
@[simp] theorem State.withX_y (s : State) (v : Byte) : (s.withX v).y = s.y := rfl
@[simp] theorem State.withX_sp (s : State) (v : Byte) : (s.withX v).sp = s.sp := rfl
@[simp] theorem State.withX_pc (s : State) (v : Byte) : (s.withX v).pc = s.pc := rfl
@[simp] theorem State.withX_ispc (s : State) (v : Byte) : (s.withX v).ispc = s.ispc := rfl
@[simp] theorem State.withX_p (s : State) (v : Byte) : (s.withX v).p = s.p := rfl
@[simp] theorem State.withX_mem (s : State) (v : Byte) : (s.withX v).mem = s.mem := rfl
@[simp] theorem State.withX_dirty (s : State) (v : Byte) : (s.withX v).dirty = s.dirty := rfl
@[simp] theorem State.withX_running (s : State) (v : Byte) : (s.withX v).running = s.running := rfl
@[simp] theorem State.withX_status (s : State) (v : Byte) : (s.withX v).status = s.status := rfl
@[simp] theorem State.withX_snapshot (s : State) (v : Byte) : (s.withX v).snapshot = s.snapshot := rfl
@[simp] theorem State.withX_draws (s : State) (v : Byte) : (s.withX v).draws = s.draws := rfl
@[simp] theorem State.withX_drawCount (s : State) (v : Byte) : (s.withX v).drawCount = s.drawCount := rfl
@[simp] theorem State.withX_host (s : State) (v : Byte) : (s.withX v).host = s.host := rfl
@[simp] theorem State.withX_hostRest (s : State) (v : Byte) : (s.withX v).hostRest = s.hostRest := rfl

@[simp] theorem State.withY_a (s : State) (v : Byte) : (s.withY v).a = s.a := rfl
@[simp] theorem State.withY_x (s : State) (v : Byte) : (s.withY v).x = s.x := rfl
@[simp] theorem State.withY_y (s : State) (v : Byte) : (s.withY v).y = v := rfl
@[simp] theorem State.withY_sp (s : State) (v : Byte) : (s.withY v).sp = s.sp := rfl
@[simp] theorem State.withY_pc (s : State) (v : Byte) : (s.withY v).pc = s.pc := rfl
@[simp] theorem State.withY_ispc (s : State) (v : Byte) : (s.withY v).ispc = s.ispc := rfl
@[simp] theorem State.withY_p (s : State) (v : Byte) : (s.withY v).p = s.p := rfl
@[simp] theorem State.withY_mem (s : State) (v : Byte) : (s.withY v).mem = s.mem := rfl
@[simp] theorem State.withY_dirty (s : State) (v : Byte) : (s.withY v).dirty = s.dirty := rfl
@[simp] theorem State.withY_running (s : State) (v : Byte) : (s.withY v).running = s.running := rfl
@[simp] theorem State.withY_status (s : State) (v : Byte) : (s.withY v).status = s.status := rfl
@[simp] theorem State.withY_snapshot (s : State) (v : Byte) : (s.withY v).snapshot = s.snapshot := rfl
@[simp] theorem State.withY_draws (s : State) (v : Byte) : (s.withY v).draws = s.draws := rfl
@[simp] theorem State.withY_drawCount (s : State) (v : Byte) : (s.withY v).drawCount = s.drawCount := rfl
@[simp] theorem State.withY_host (s : State) (v : Byte) : (s.withY v).host = s.host := rfl
@[simp] theorem State.withY_hostRest (s : State) (v : Byte) : (s.withY v).hostRest = s.hostRest := rfl

@[simp] theorem State.withSp_a (s : State) (v : Byte) : (s.withSp v).a = s.a := rfl
@[simp] theorem State.withSp_x (s : State) (v : Byte) : (s.withSp v).x = s.x := rfl
@[simp] theorem State.withSp_y (s : State) (v : Byte) : (s.withSp v).y = s.y := rfl
@[simp] theorem State.withSp_sp (s : State) (v : Byte) : (s.withSp v).sp = v := rfl
@[simp] theorem State.withSp_pc (s : State) (v : Byte) : (s.withSp v).pc = s.pc := rfl
@[simp] theorem State.withSp_ispc (s : State) (v : Byte) : (s.withSp v).ispc = s.ispc := rfl
@[simp] theorem State.withSp_p (s : State) (v : Byte) : (s.withSp v).p = s.p := rfl
@[simp] theorem State.withSp_mem (s : State) (v : Byte) : (s.withSp v).mem = s.mem := rfl
@[simp] theorem State.withSp_dirty (s : State) (v : Byte) : (s.withSp v).dirty = s.dirty := rfl
@[simp] theorem State.withSp_running (s : State) (v : Byte) : (s.withSp v).running = s.running := rfl
@[simp] theorem State.withSp_status (s : State) (v : Byte) : (s.withSp v).status = s.status := rfl
@[simp] theorem State.withSp_snapshot (s : State) (v : Byte) : (s.withSp v).snapshot = s.snapshot := rfl
@[simp] theorem State.withSp_draws (s : State) (v : Byte) : (s.withSp v).draws = s.draws := rfl
@[simp] theorem State.withSp_drawCount (s : State) (v : Byte) : (s.withSp v).drawCount = s.drawCount := rfl
@[simp] theorem State.withSp_host (s : State) (v : Byte) : (s.withSp v).host = s.host := rfl
@[simp] theorem State.withSp_hostRest (s : State) (v : Byte) : (s.withSp v).hostRest = s.hostRest := rfl

@[simp] theorem State.withPc_a (s : State) (v : Nat) : (s.withPc v).a = s.a := rfl
@[simp] theorem State.withPc_x (s : State) (v : Nat) : (s.withPc v).x = s.x := rfl
@[simp] theorem State.withPc_y (s : State) (v : Nat) : (s.withPc v).y = s.y := rfl
@[simp] theorem State.withPc_sp (s : State) (v : Nat) : (s.withPc v).sp = s.sp := rfl
@[simp] theorem State.withPc_pc (s : State) (v : Nat) : (s.withPc v).pc = v := rfl
@[simp] theorem State.withPc_ispc (s : State) (v : Nat) : (s.withPc v).ispc = s.ispc := rfl
@[simp] theorem State.withPc_p (s : State) (v : Nat) : (s.withPc v).p = s.p := rfl
@[simp] theorem State.withPc_mem (s : State) (v : Nat) : (s.withPc v).mem = s.mem := rfl
@[simp] theorem State.withPc_dirty (s : State) (v : Nat) : (s.withPc v).dirty = s.dirty := rfl
@[simp] theorem State.withPc_running (s : State) (v : Nat) : (s.withPc v).running = s.running := rfl
@[simp] theorem State.withPc_status (s : State) (v : Nat) : (s.withPc v).status = s.status := rfl
@[simp] theorem State.withPc_snapshot (s : State) (v : Nat) : (s.withPc v).snapshot = s.snapshot := rfl
@[simp] theorem State.withPc_draws (s : State) (v : Nat) : (s.withPc v).draws = s.draws := rfl
@[simp] theorem State.withPc_drawCount (s : State) (v : Nat) : (s.withPc v).drawCount = s.drawCount := rfl
@[simp] theorem State.withPc_host (s : State) (v : Nat) : (s.withPc v).host = s.host := rfl
@[simp] theorem State.withPc_hostRest (s : State) (v : Nat) : (s.withPc v).hostRest = s.hostRest := rfl

@[simp] theorem State.withIspc_a (s : State) (v : Nat) : (s.withIspc v).a = s.a := rfl
@[simp] theorem State.withIspc_x (s : State) (v : Nat) : (s.withIspc v).x = s.x := rfl
@[simp] theorem State.withIspc_y (s : State) (v : Nat) : (s.withIspc v).y = s.y := rfl
@[simp] theorem State.withIspc_sp (s : State) (v : Nat) : (s.withIspc v).sp = s.sp := rfl
@[simp] theorem State.withIspc_pc (s : State) (v : Nat) : (s.withIspc v).pc = s.pc := rfl
@[simp] theorem State.withIspc_ispc (s : State) (v : Nat) : (s.withIspc v).ispc = v := rfl
@[simp] theorem State.withIspc_p (s : State) (v : Nat) : (s.withIspc v).p = s.p := rfl
@[simp] theorem State.withIspc_mem (s : State) (v : Nat) : (s.withIspc v).mem = s.mem := rfl
@[simp] theorem State.withIspc_dirty (s : State) (v : Nat) : (s.withIspc v).dirty = s.dirty := rfl
@[simp] theorem State.withIspc_running (s : State) (v : Nat) : (s.withIspc v).running = s.running := rfl
@[simp] theorem State.withIspc_status (s : State) (v : Nat) : (s.withIspc v).status = s.status := rfl
@[simp] theorem State.withIspc_snapshot (s : State) (v : Nat) : (s.withIspc v).snapshot = s.snapshot := rfl
@[simp] theorem State.withIspc_draws (s : State) (v : Nat) : (s.withIspc v).draws = s.draws := rfl
@[simp] theorem State.withIspc_drawCount (s : State) (v : Nat) : (s.withIspc v).drawCount = s.drawCount := rfl
@[simp] theorem State.withIspc_host (s : State) (v : Nat) : (s.withIspc v).host = s.host := rfl
@[simp] theorem State.withIspc_hostRest (s : State) (v : Nat) : (s.withIspc v).hostRest = s.hostRest := rfl

@[simp] theorem State.withP_a (s : State) (v : Flags) : (s.withP v).a = s.a := rfl
@[simp] theorem State.withP_x (s : State) (v : Flags) : (s.withP v).x = s.x := rfl
@[simp] theorem State.withP_y (s : State) (v : Flags) : (s.withP v).y = s.y := rfl
@[simp] theorem State.withP_sp (s : State) (v : Flags) : (s.withP v).sp = s.sp := rfl
@[simp] theorem State.withP_pc (s : State) (v : Flags) : (s.withP v).pc = s.pc := rfl
@[simp] theorem State.withP_ispc (s : State) (v : Flags) : (s.withP v).ispc = s.ispc := rfl
@[simp] theorem State.withP_p (s : State) (v : Flags) : (s.withP v).p = v := rfl
@[simp] theorem State.withP_mem (s : State) (v : Flags) : (s.withP v).mem = s.mem := rfl
@[simp] theorem State.withP_dirty (s : State) (v : Flags) : (s.withP v).dirty = s.dirty := rfl
@[simp] theorem State.withP_running (s : State) (v : Flags) : (s.withP v).running = s.running := rfl
@[simp] theorem State.withP_status (s : State) (v : Flags) : (s.withP v).status = s.status := rfl
@[simp] theorem State.withP_snapshot (s : State) (v : Flags) : (s.withP v).snapshot = s.snapshot := rfl
@[simp] theorem State.withP_draws (s : State) (v : Flags) : (s.withP v).draws = s.draws := rfl
@[simp] theorem State.withP_drawCount (s : State) (v : Flags) : (s.withP v).drawCount = s.drawCount := rfl
@[simp] theorem State.withP_host (s : State) (v : Flags) : (s.withP v).host = s.host := rfl
@[simp] theorem State.withP_hostRest (s : State) (v : Flags) : (s.withP v).hostRest = s.hostRest := rfl

@[simp] theorem State.withMem_a (s : State) (v : Memory) : (s.withMem v).a = s.a := rfl
@[simp] theorem State.withMem_x (s : State) (v : Memory) : (s.withMem v).x = s.x := rfl
@[simp] theorem State.withMem_y (s : State) (v : Memory) : (s.withMem v).y = s.y := rfl
@[simp] theorem State.withMem_sp (s : State) (v : Memory) : (s.withMem v).sp = s.sp := rfl
@[simp] theorem State.withMem_pc (s : State) (v : Memory) : (s.withMem v).pc = s.pc := rfl
@[simp] theorem State.withMem_ispc (s : State) (v : Memory) : (s.withMem v).ispc = s.ispc := rfl
@[simp] theorem State.withMem_p (s : State) (v : Memory) : (s.withMem v).p = s.p := rfl
@[simp] theorem State.withMem_mem (s : State) (v : Memory) : (s.withMem v).mem = v := rfl
@[simp] theorem State.withMem_dirty (s : State) (v : Memory) : (s.withMem v).dirty = s.dirty := rfl
@[simp] theorem State.withMem_running (s : State) (v : Memory) : (s.withMem v).running = s.running := rfl
@[simp] theorem State.withMem_status (s : State) (v : Memory) : (s.withMem v).status = s.status := rfl
@[simp] theorem State.withMem_snapshot (s : State) (v : Memory) : (s.withMem v).snapshot = s.snapshot := rfl
@[simp] theorem State.withMem_draws (s : State) (v : Memory) : (s.withMem v).draws = s.draws := rfl
@[simp] theorem State.withMem_drawCount (s : State) (v : Memory) : (s.withMem v).drawCount = s.drawCount := rfl
@[simp] theorem State.withMem_host (s : State) (v : Memory) : (s.withMem v).host = s.host := rfl
@[simp] theorem State.withMem_hostRest (s : State) (v : Memory) : (s.withMem v).hostRest = s.hostRest := rfl

@[simp] theorem State.withDirty_a (s : State) (v : Bool) : (s.withDirty v).a = s.a := rfl
@[simp] theorem State.withDirty_x (s : State) (v : Bool) : (s.withDirty v).x = s.x := rfl
@[simp] theorem State.withDirty_y (s : State) (v : Bool) : (s.withDirty v).y = s.y := rfl
@[simp] theorem State.withDirty_sp (s : State) (v : Bool) : (s.withDirty v).sp = s.sp := rfl
@[simp] theorem State.withDirty_pc (s : State) (v : Bool) : (s.withDirty v).pc = s.pc := rfl
@[simp] theorem State.withDirty_ispc (s : State) (v : Bool) : (s.withDirty v).ispc = s.ispc := rfl
@[simp] theorem State.withDirty_p (s : State) (v : Bool) : (s.withDirty v).p = s.p := rfl
@[simp] theorem State.withDirty_mem (s : State) (v : Bool) : (s.withDirty v).mem = s.mem := rfl
@[simp] theorem State.withDirty_dirty (s : State) (v : Bool) : (s.withDirty v).dirty = v := rfl
@[simp] theorem State.withDirty_running (s : State) (v : Bool) : (s.withDirty v).running = s.running := rfl
@[simp] theorem State.withDirty_status (s : State) (v : Bool) : (s.withDirty v).status = s.status := rfl
@[simp] theorem State.withDirty_snapshot (s : State) (v : Bool) : (s.withDirty v).snapshot = s.snapshot := rfl
@[simp] theorem State.withDirty_draws (s : State) (v : Bool) : (s.withDirty v).draws = s.draws := rfl
@[simp] theorem State.withDirty_drawCount (s : State) (v : Bool) : (s.withDirty v).drawCount = s.drawCount := rfl
@[simp] theorem State.withDirty_host (s : State) (v : Bool) : (s.withDirty v).host = s.host := rfl
@[simp] theorem State.withDirty_hostRest (s : State) (v : Bool) : (s.withDirty v).hostRest = s.hostRest := rfl

@[simp] theorem State.withRunning_a (s : State) (v : Bool) : (s.withRunning v).a = s.a := rfl
@[simp] theorem State.withRunning_x (s : State) (v : Bool) : (s.withRunning v).x = s.x := rfl
@[simp] theorem State.withRunning_y (s : State) (v : Bool) : (s.withRunning v).y = s.y := rfl
@[simp] theorem State.withRunning_sp (s : State) (v : Bool) : (s.withRunning v).sp = s.sp := rfl
@[simp] theorem State.withRunning_pc (s : State) (v : Bool) : (s.withRunning v).pc = s.pc := rfl
@[simp] theorem State.withRunning_ispc (s : State) (v : Bool) : (s.withRunning v).ispc = s.ispc := rfl
@[simp] theorem State.withRunning_p (s : State) (v : Bool) : (s.withRunning v).p = s.p := rfl
@[simp] theorem State.withRunning_mem (s : State) (v : Bool) : (s.withRunning v).mem = s.mem := rfl
@[simp] theorem State.withRunning_dirty (s : State) (v : Bool) : (s.withRunning v).dirty = s.dirty := rfl
@[simp] theorem State.withRunning_running (s : State) (v : Bool) : (s.withRunning v).running = v := rfl
@[simp] theorem State.withRunning_status (s : State) (v : Bool) : (s.withRunning v).status = s.status := rfl
@[simp] theorem State.withRunning_snapshot (s : State) (v : Bool) : (s.withRunning v).snapshot = s.snapshot := rfl
@[simp] theorem State.withRunning_draws (s : State) (v : Bool) : (s.withRunning v).draws = s.draws := rfl
@[simp] theorem State.withRunning_drawCount (s : State) (v : Bool) : (s.withRunning v).drawCount = s.drawCount := rfl
@[simp] theorem State.withRunning_host (s : State) (v : Bool) : (s.withRunning v).host = s.host := rfl
@[simp] theorem State.withRunning_hostRest (s : State) (v : Bool) : (s.withRunning v).hostRest = s.hostRest := rfl

@[simp] theorem State.withStatus_a (s : State) (v : Status) : (s.withStatus v).a = s.a := rfl
@[simp] theorem State.withStatus_x (s : State) (v : Status) : (s.withStatus v).x = s.x := rfl
@[simp] theorem State.withStatus_y (s : State) (v : Status) : (s.withStatus v).y = s.y := rfl
@[simp] theorem State.withStatus_sp (s : State) (v : Status) : (s.withStatus v).sp = s.sp := rfl
@[simp] theorem State.withStatus_pc (s : State) (v : Status) : (s.withStatus v).pc = s.pc := rfl
@[simp] theorem State.withStatus_ispc (s : State) (v : Status) : (s.withStatus v).ispc = s.ispc := rfl
@[simp] theorem State.withStatus_p (s : State) (v : Status) : (s.withStatus v).p = s.p := rfl
@[simp] theorem State.withStatus_mem (s : State) (v : Status) : (s.withStatus v).mem = s.mem := rfl
@[simp] theorem State.withStatus_dirty (s : State) (v : Status) : (s.withStatus v).dirty = s.dirty := rfl
@[simp] theorem State.withStatus_running (s : State) (v : Status) : (s.withStatus v).running = s.running := rfl
@[simp] theorem State.withStatus_status (s : State) (v : Status) : (s.withStatus v).status = v := rfl
@[simp] theorem State.withStatus_snapshot (s : State) (v : Status) : (s.withStatus v).snapshot = s.snapshot := rfl
@[simp] theorem State.withStatus_draws (s : State) (v : Status) : (s.withStatus v).draws = s.draws := rfl
@[simp] theorem State.withStatus_drawCount (s : State) (v : Status) : (s.withStatus v).drawCount = s.drawCount := rfl
@[simp] theorem State.withStatus_host (s : State) (v : Status) : (s.withStatus v).host = s.host := rfl
@[simp] theorem State.withStatus_hostRest (s : State) (v : Status) : (s.withStatus v).hostRest = s.hostRest := rfl

@[simp] theorem State.withSnapshot_a (s : State) (v : Memory) : (s.withSnapshot v).a = s.a := rfl
@[simp] theorem State.withSnapshot_x (s : State) (v : Memory) : (s.withSnapshot v).x = s.x := rfl
@[simp] theorem State.withSnapshot_y (s : State) (v : Memory) : (s.withSnapshot v).y = s.y := rfl
@[simp] theorem State.withSnapshot_sp (s : State) (v : Memory) : (s.withSnapshot v).sp = s.sp := rfl
@[simp] theorem State.withSnapshot_pc (s : State) (v : Memory) : (s.withSnapshot v).pc = s.pc := rfl
@[simp] theorem State.withSnapshot_ispc (s : State) (v : Memory) : (s.withSnapshot v).ispc = s.ispc := rfl
@[simp] theorem State.withSnapshot_p (s : State) (v : Memory) : (s.withSnapshot v).p = s.p := rfl
@[simp] theorem State.withSnapshot_mem (s : State) (v : Memory) : (s.withSnapshot v).mem = s.mem := rfl
@[simp] theorem State.withSnapshot_dirty (s : State) (v : Memory) : (s.withSnapshot v).dirty = s.dirty := rfl
@[simp] theorem State.withSnapshot_running (s : State) (v : Memory) : (s.withSnapshot v).running = s.running := rfl
@[simp] theorem State.withSnapshot_status (s : State) (v : Memory) : (s.withSnapshot v).status = s.status := rfl
@[simp] theorem State.withSnapshot_snapshot (s : State) (v : Memory) : (s.withSnapshot v).snapshot = v := rfl
@[simp] theorem State.withSnapshot_draws (s : State) (v : Memory) : (s.withSnapshot v).draws = s.draws := rfl
@[simp] theorem State.withSnapshot_drawCount (s : State) (v : Memory) : (s.withSnapshot v).drawCount = s.drawCount := rfl
@[simp] theorem State.withSnapshot_host (s : State) (v : Memory) : (s.withSnapshot v).host = s.host := rfl
@[simp] theorem State.withSnapshot_hostRest (s : State) (v : Memory) : (s.withSnapshot v).hostRest = s.hostRest := rfl

@[simp] theorem State.withDraws_a (s : State) (v : List (Fin 15)) : (s.withDraws v).a = s.a := rfl
@[simp] theorem State.withDraws_x (s : State) (v : List (Fin 15)) : (s.withDraws v).x = s.x := rfl
@[simp] theorem State.withDraws_y (s : State) (v : List (Fin 15)) : (s.withDraws v).y = s.y := rfl
@[simp] theorem State.withDraws_sp (s : State) (v : List (Fin 15)) : (s.withDraws v).sp = s.sp := rfl
@[simp] theorem State.withDraws_pc (s : State) (v : List (Fin 15)) : (s.withDraws v).pc = s.pc := rfl
@[simp] theorem State.withDraws_ispc (s : State) (v : List (Fin 15)) : (s.withDraws v).ispc = s.ispc := rfl
@[simp] theorem State.withDraws_p (s : State) (v : List (Fin 15)) : (s.withDraws v).p = s.p := rfl
@[simp] theorem State.withDraws_mem (s : State) (v : List (Fin 15)) : (s.withDraws v).mem = s.mem := rfl
@[simp] theorem State.withDraws_dirty (s : State) (v : List (Fin 15)) : (s.withDraws v).dirty = s.dirty := rfl
@[simp] theorem State.withDraws_running (s : State) (v : List (Fin 15)) : (s.withDraws v).running = s.running := rfl
@[simp] theorem State.withDraws_status (s : State) (v : List (Fin 15)) : (s.withDraws v).status = s.status := rfl
@[simp] theorem State.withDraws_snapshot (s : State) (v : List (Fin 15)) : (s.withDraws v).snapshot = s.snapshot := rfl
@[simp] theorem State.withDraws_draws (s : State) (v : List (Fin 15)) : (s.withDraws v).draws = v := rfl
@[simp] theorem State.withDraws_drawCount (s : State) (v : List (Fin 15)) : (s.withDraws v).drawCount = s.drawCount := rfl
@[simp] theorem State.withDraws_host (s : State) (v : List (Fin 15)) : (s.withDraws v).host = s.host := rfl
@[simp] theorem State.withDraws_hostRest (s : State) (v : List (Fin 15)) : (s.withDraws v).hostRest = s.hostRest := rfl

@[simp] theorem State.withDrawCount_a (s : State) (v : Nat) : (s.withDrawCount v).a = s.a := rfl
@[simp] theorem State.withDrawCount_x (s : State) (v : Nat) : (s.withDrawCount v).x = s.x := rfl
@[simp] theorem State.withDrawCount_y (s : State) (v : Nat) : (s.withDrawCount v).y = s.y := rfl
@[simp] theorem State.withDrawCount_sp (s : State) (v : Nat) : (s.withDrawCount v).sp = s.sp := rfl
@[simp] theorem State.withDrawCount_pc (s : State) (v : Nat) : (s.withDrawCount v).pc = s.pc := rfl
@[simp] theorem State.withDrawCount_ispc (s : State) (v : Nat) : (s.withDrawCount v).ispc = s.ispc := rfl
@[simp] theorem State.withDrawCount_p (s : State) (v : Nat) : (s.withDrawCount v).p = s.p := rfl
@[simp] theorem State.withDrawCount_mem (s : State) (v : Nat) : (s.withDrawCount v).mem = s.mem := rfl
@[simp] theorem State.withDrawCount_dirty (s : State) (v : Nat) : (s.withDrawCount v).dirty = s.dirty := rfl
@[simp] theorem State.withDrawCount_running (s : State) (v : Nat) : (s.withDrawCount v).running = s.running := rfl
@[simp] theorem State.withDrawCount_status (s : State) (v : Nat) : (s.withDrawCount v).status = s.status := rfl
@[simp] theorem State.withDrawCount_snapshot (s : State) (v : Nat) : (s.withDrawCount v).snapshot = s.snapshot := rfl
@[simp] theorem State.withDrawCount_draws (s : State) (v : Nat) : (s.withDrawCount v).draws = s.draws := rfl
@[simp] theorem State.withDrawCount_drawCount (s : State) (v : Nat) : (s.withDrawCount v).drawCount = v := rfl
@[simp] theorem State.withDrawCount_host (s : State) (v : Nat) : (s.withDrawCount v).host = s.host := rfl
@[simp] theorem State.withDrawCount_hostRest (s : State) (v : Nat) : (s.withDrawCount v).hostRest = s.hostRest := rfl

@[simp] theorem State.withHost_a (s : State) (v : List HostMove) : (s.withHost v).a = s.a := rfl
@[simp] theorem State.withHost_x (s : State) (v : List HostMove) : (s.withHost v).x = s.x := rfl
@[simp] theorem State.withHost_y (s : State) (v : List HostMove) : (s.withHost v).y = s.y := rfl
@[simp] theorem State.withHost_sp (s : State) (v : List HostMove) : (s.withHost v).sp = s.sp := rfl
@[simp] theorem State.withHost_pc (s : State) (v : List HostMove) : (s.withHost v).pc = s.pc := rfl
@[simp] theorem State.withHost_ispc (s : State) (v : List HostMove) : (s.withHost v).ispc = s.ispc := rfl
@[simp] theorem State.withHost_p (s : State) (v : List HostMove) : (s.withHost v).p = s.p := rfl
@[simp] theorem State.withHost_mem (s : State) (v : List HostMove) : (s.withHost v).mem = s.mem := rfl
@[simp] theorem State.withHost_dirty (s : State) (v : List HostMove) : (s.withHost v).dirty = s.dirty := rfl
@[simp] theorem State.withHost_running (s : State) (v : List HostMove) : (s.withHost v).running = s.running := rfl
@[simp] theorem State.withHost_status (s : State) (v : List HostMove) : (s.withHost v).status = s.status := rfl
@[simp] theorem State.withHost_snapshot (s : State) (v : List HostMove) : (s.withHost v).snapshot = s.snapshot := rfl
@[simp] theorem State.withHost_draws (s : State) (v : List HostMove) : (s.withHost v).draws = s.draws := rfl
@[simp] theorem State.withHost_drawCount (s : State) (v : List HostMove) : (s.withHost v).drawCount = s.drawCount := rfl
@[simp] theorem State.withHost_host (s : State) (v : List HostMove) : (s.withHost v).host = v := rfl
@[simp] theorem State.withHost_hostRest (s : State) (v : List HostMove) : (s.withHost v).hostRest = s.hostRest := rfl

@[simp] theorem State.withHostRest_a (s : State) (v : HostRest) : (s.withHostRest v).a = s.a := rfl
@[simp] theorem State.withHostRest_x (s : State) (v : HostRest) : (s.withHostRest v).x = s.x := rfl
@[simp] theorem State.withHostRest_y (s : State) (v : HostRest) : (s.withHostRest v).y = s.y := rfl
@[simp] theorem State.withHostRest_sp (s : State) (v : HostRest) : (s.withHostRest v).sp = s.sp := rfl
@[simp] theorem State.withHostRest_pc (s : State) (v : HostRest) : (s.withHostRest v).pc = s.pc := rfl
@[simp] theorem State.withHostRest_ispc (s : State) (v : HostRest) : (s.withHostRest v).ispc = s.ispc := rfl
@[simp] theorem State.withHostRest_p (s : State) (v : HostRest) : (s.withHostRest v).p = s.p := rfl
@[simp] theorem State.withHostRest_mem (s : State) (v : HostRest) : (s.withHostRest v).mem = s.mem := rfl
@[simp] theorem State.withHostRest_dirty (s : State) (v : HostRest) : (s.withHostRest v).dirty = s.dirty := rfl
@[simp] theorem State.withHostRest_running (s : State) (v : HostRest) : (s.withHostRest v).running = s.running := rfl
@[simp] theorem State.withHostRest_status (s : State) (v : HostRest) : (s.withHostRest v).status = s.status := rfl
@[simp] theorem State.withHostRest_snapshot (s : State) (v : HostRest) : (s.withHostRest v).snapshot = s.snapshot := rfl
@[simp] theorem State.withHostRest_draws (s : State) (v : HostRest) : (s.withHostRest v).draws = s.draws := rfl
@[simp] theorem State.withHostRest_drawCount (s : State) (v : HostRest) : (s.withHostRest v).drawCount = s.drawCount := rfl
@[simp] theorem State.withHostRest_host (s : State) (v : HostRest) : (s.withHostRest v).host = s.host := rfl
@[simp] theorem State.withHostRest_hostRest (s : State) (v : HostRest) : (s.withHostRest v).hostRest = v := rfl

end Sys2Proof.Machine
end

