-- ==== Sys2Proof/Laws/Ops.lean ====
section
/-! SUPPORT. What each shared operation can do: one lemma for the answers that go on and one for the faults. Proofs
cite these instead of unfolding the operations. -/

namespace Sys2Proof.Machine

open Sys2Proof

/-! ## Chaining -/

theorem bind_ok_iff {α β : Type} {x : Except Fault α} {f : α → Except Fault β} {b : β} :
    (x >>= f) = .ok b ↔ ∃ a, x = .ok a ∧ f a = .ok b := by
  cases x <;> simp [bind, Except.bind]

theorem bind_error_iff {α β : Type} {x : Except Fault α} {f : α → Except Fault β} {e : Fault} :
    (x >>= f) = .error e ↔ x = .error e ∨ ∃ a, x = .ok a ∧ f a = .error e := by
  cases x <;> simp [bind, Except.bind]

theorem finish_next_iff {x : Except Fault State} {t : State} : finish x = .next t ↔ x = .ok t := by
  cases x <;> simp [finish]

theorem finish_fault_iff {x : Except Fault State} {f : Fault} : finish x = .fault f ↔ x = .error f := by
  cases x <;> simp [finish]

theorem finish_not_refused {x : Except Fault State} {r : Refusal} : finish x ≠ .refused r := by
  cases x <;> simp [finish]

/-! ## Bytes and words -/

theorem wordOf_toNat (hi lo : Byte) : (wordOf hi lo).toNat = hi.toNat * 256 + lo.toNat := by
  have h := lo.isLt
  simp only [wordOf, BitVec.toNat_append]
  rw [← Nat.shiftLeft_add_eq_or_of_lt h, Nat.shiftLeft_eq]

theorem loByte_toNat (w : Word) : (loByte w).toNat = w.toNat % 256 := by
  simp [loByte]

theorem hiByte_toNat (w : Word) : (hiByte w).toNat = w.toNat / 256 := by
  have := w.isLt
  simp only [hiByte, BitVec.toNat_setWidth, BitVec.toNat_ushiftRight, Nat.shiftRight_eq_div_pow]
  omega

@[simp] theorem wordOf_hi_lo (w : Word) : wordOf (hiByte w) (loByte w) = w := by
  apply BitVec.eq_of_toNat_eq
  rw [wordOf_toNat, hiByte_toNat, loByte_toNat]
  omega

@[simp] theorem hiByte_wordOf (hi lo : Byte) : hiByte (wordOf hi lo) = hi := by
  have := lo.isLt
  apply BitVec.eq_of_toNat_eq
  rw [hiByte_toNat, wordOf_toNat]
  omega

@[simp] theorem loByte_wordOf (hi lo : Byte) : loByte (wordOf hi lo) = lo := by
  have := lo.isLt
  apply BitVec.eq_of_toNat_eq
  rw [loByte_toNat, wordOf_toNat]
  omega

theorem stackAddr_lt (slot : Byte) : stackAddr slot < memSize := by
  have := slot.isLt
  simp only [stackAddr, stackBase, memSize]
  omega

theorem stackAddr_ne_random (slot : Byte) : stackAddr slot ≠ randomAddr := by
  simp only [stackAddr, stackBase, randomAddr]
  omega

theorem stackAddr_inj {r q : Byte} : stackAddr r = stackAddr q ↔ r = q := by
  simp only [stackAddr, BitVec.toNat_eq]
  omega

/-! ## Reads -/

theorem SameButDraws.refl (s : State) : SameButDraws s s := rfl

theorem SameButDraws.trans {s t u : State} (h : SameButDraws s t) (h' : SameButDraws t u) : SameButDraws s u := by
  unfold SameButDraws at *
  rw [h', h]
  rfl

/-- The fields of a state that a read leaves alone. -/
theorem SameButDraws.fields {s t : State} (h : SameButDraws s t) :
    t.a = s.a ∧ t.x = s.x ∧ t.y = s.y ∧ t.sp = s.sp ∧ t.pc = s.pc ∧ t.ispc = s.ispc ∧ t.p = s.p ∧ t.mem = s.mem ∧
      t.dirty = s.dirty ∧ t.running = s.running ∧ t.status = s.status ∧ t.snapshot = s.snapshot ∧ t.host = s.host ∧
      t.hostRest = s.hostRest := by
  unfold SameButDraws at h
  rw [h]
  exact ⟨rfl, rfl, rfl, rfl, rfl, rfl, rfl, rfl, rfl, rfl, rfl, rfl, rfl, rfl⟩

theorem draw_same (s : State) : SameButDraws s (draw s).2 := by
  unfold draw
  split <;> rfl

theorem memRead_ok_iff {a : Nat} {s : State} {r : Byte × State} :
    memRead a s = .ok r ↔
      a < memSize ∧ ((a = randomAddr ∧ r = draw s) ∨ (a ≠ randomAddr ∧ r = (cellAt s.mem a, s))) := by
  unfold memRead raiseOutOfBounds
  by_cases h : memSize ≤ a
  · simp [h, Nat.not_lt.mpr h]
  · rw [if_neg h]
    by_cases hr : a = randomAddr
    · rw [if_pos hr]
      simp [hr, eq_comm]
      exact fun _ => hr ▸ Nat.not_le.mp h
    · simp [hr, Nat.not_le.mp h, eq_comm]

theorem memRead_error_iff {a : Nat} {s : State} {f : Fault} :
    memRead a s = .error f ↔ memSize ≤ a ∧ f = .outOfBounds a (s.faulted .outOfBounds) := by
  unfold memRead raiseOutOfBounds
  by_cases h : memSize ≤ a
  · simp [h, eq_comm]
  · rw [if_neg h]
    split <;> simp [h]

theorem memRead_plain {a : Nat} (s : State) (h : a < memSize) (hr : a ≠ randomAddr) :
    memRead a s = .ok (cellAt s.mem a, s) := by
  simp [memRead, Nat.not_le.mpr h, hr]

theorem memRead_same {a : Nat} {s : State} {r : Byte × State} (h : memRead a s = .ok r) : SameButDraws s r.2 := by
  obtain ⟨_, ⟨_, rfl⟩ | ⟨_, rfl⟩⟩ := memRead_ok_iff.mp h
  · exact draw_same s
  · exact .refl s

theorem memRead16_ok_iff {a : Nat} {s : State} {r : Word × State} :
    memRead16 a s = .ok r ↔
      ∃ lo hi, memRead a s = .ok lo ∧ a + 1 ≤ addrMax ∧ memRead (a + 1) lo.2 = .ok hi ∧
        r = (wordOf hi.1 lo.1, hi.2) := by
  unfold memRead16 raiseAddressCalculation
  rw [bind_ok_iff]
  simp only [exists_and_left]
  refine exists_congr fun lo => ?_
  by_cases h : addrMax < a + 1
  · simp [h, Nat.not_le.mpr h]
  · rw [if_neg h, bind_ok_iff]
    refine and_congr_right fun _ => ⟨?_, ?_⟩
    · rintro ⟨hi, hhi, hr⟩
      cases hr
      exact ⟨Nat.not_lt.mp h, hi, hhi, rfl⟩
    · rintro ⟨_, hi, hhi, rfl⟩
      exact ⟨hi, hhi, rfl⟩

/-- Every fault of a 16-bit read is `OutOfBounds` (20 R73: the overflow test can never fire). -/
theorem memRead16_error {a : Nat} {s : State} {f : Fault} (h : memRead16 a s = .error f) :
    ∃ b t, memSize ≤ b ∧ SameButDraws s t ∧ f = .outOfBounds b (t.faulted .outOfBounds) := by
  unfold memRead16 raiseAddressCalculation at h
  obtain h | ⟨lo, hlo, h⟩ := bind_error_iff.mp h
  · obtain ⟨hb, rfl⟩ := memRead_error_iff.mp h
    exact ⟨a, s, hb, .refl s, rfl⟩
  · have ha := (memRead_ok_iff.mp hlo).1
    simp only [memSize] at ha
    rw [if_neg (by simp only [addrMax]; omega)] at h
    obtain h | ⟨hi, _, h⟩ := bind_error_iff.mp h
    · obtain ⟨hb, rfl⟩ := memRead_error_iff.mp h
      exact ⟨a + 1, lo.2, hb, memRead_same hlo, rfl⟩
    · cases h

theorem memRead16_same {a : Nat} {s : State} {r : Word × State} (h : memRead16 a s = .ok r) :
    SameButDraws s r.2 := by
  obtain ⟨lo, hi, hlo, _, hhi, rfl⟩ := memRead16_ok_iff.mp h
  exact (memRead_same hlo).trans (memRead_same hhi)

theorem memRead16_plain {a : Nat} (s : State) (h : a + 1 < memSize) (hr : a ≠ randomAddr)
    (hr' : a + 1 ≠ randomAddr) :
    memRead16 a s = .ok (wordOf (cellAt s.mem (a + 1)) (cellAt s.mem a), s) := by
  refine memRead16_ok_iff.mpr ⟨_, _, memRead_plain s (by omega) hr, ?_, memRead_plain s h hr', rfl⟩
  simp only [memSize, addrMax] at *
  omega

/-! ## Writes -/

theorem memWrite_ok_iff {a : Nat} {v : Byte} {s t : State} :
    memWrite a v s = .ok t ↔ a < memSize ∧ t = storeCell a v s := by
  unfold memWrite raiseOutOfBounds
  by_cases h : memSize ≤ a
  · simp [h, Nat.not_lt.mpr h]
  · simp [h, Nat.not_le.mp h, eq_comm]

theorem memWrite_error_iff {a : Nat} {v : Byte} {s : State} {f : Fault} :
    memWrite a v s = .error f ↔ memSize ≤ a ∧ f = .outOfBounds a (s.faulted .outOfBounds) := by
  unfold memWrite raiseOutOfBounds
  by_cases h : memSize ≤ a <;> simp [h, eq_comm]

@[simp] theorem storeCell_mem (a : Nat) (v : Byte) (s : State) : (storeCell a v s).mem = setCell s.mem a v := rfl
@[simp] theorem storeCell_a (a : Nat) (v : Byte) (s : State) : (storeCell a v s).a = s.a := rfl
@[simp] theorem storeCell_x (a : Nat) (v : Byte) (s : State) : (storeCell a v s).x = s.x := rfl
@[simp] theorem storeCell_y (a : Nat) (v : Byte) (s : State) : (storeCell a v s).y = s.y := rfl
@[simp] theorem storeCell_sp (a : Nat) (v : Byte) (s : State) : (storeCell a v s).sp = s.sp := rfl
@[simp] theorem storeCell_pc (a : Nat) (v : Byte) (s : State) : (storeCell a v s).pc = s.pc := rfl
@[simp] theorem storeCell_ispc (a : Nat) (v : Byte) (s : State) : (storeCell a v s).ispc = s.ispc := rfl
@[simp] theorem storeCell_p (a : Nat) (v : Byte) (s : State) : (storeCell a v s).p = s.p := rfl
@[simp] theorem storeCell_running (a : Nat) (v : Byte) (s : State) : (storeCell a v s).running = s.running := rfl
@[simp] theorem storeCell_status (a : Nat) (v : Byte) (s : State) : (storeCell a v s).status = s.status := rfl
@[simp] theorem storeCell_snapshot (a : Nat) (v : Byte) (s : State) : (storeCell a v s).snapshot = s.snapshot := rfl
@[simp] theorem storeCell_draws (a : Nat) (v : Byte) (s : State) : (storeCell a v s).draws = s.draws := rfl
@[simp] theorem storeCell_drawCount (a : Nat) (v : Byte) (s : State) : (storeCell a v s).drawCount = s.drawCount := rfl
@[simp] theorem storeCell_host (a : Nat) (v : Byte) (s : State) : (storeCell a v s).host = s.host := rfl
@[simp] theorem storeCell_hostRest (a : Nat) (v : Byte) (s : State) : (storeCell a v s).hostRest = s.hostRest := rfl

/-! ## Control -/

theorem goto_ok_iff {t : Nat} {s u : State} : goto t s = .ok u ↔ t < memSize ∧ u = (s.withPc t).withIspc t := by
  unfold goto raiseInvalidTarget
  by_cases h : memSize ≤ t
  · simp [h, Nat.not_lt.mpr h]
  · simp [h, Nat.not_le.mp h, eq_comm]

theorem goto_error_iff {t : Nat} {s : State} {f : Fault} :
    goto t s = .error f ↔ memSize ≤ t ∧ f = .invalidTarget t (s.faulted .invalidTarget) := by
  unfold goto raiseInvalidTarget
  by_cases h : memSize ≤ t <;> simp [h, eq_comm]

/-! ## Stack -/

theorem push8_ok_iff {v : Byte} {s t : State} :
    push8 v s = .ok t ↔ s.sp ≠ 0x00 ∧ t = (storeCell (stackAddr s.sp) v s).withSp (s.sp - 1) := by
  unfold push8 raiseStackOverflow
  by_cases h : s.sp = 0x00
  · simp [h]
  · rw [if_neg h, bind_ok_iff]
    constructor
    · rintro ⟨u, hu, ht⟩
      obtain ⟨_, rfl⟩ := memWrite_ok_iff.mp hu
      cases ht
      exact ⟨h, rfl⟩
    · rintro ⟨_, rfl⟩
      exact ⟨_, memWrite_ok_iff.mpr ⟨stackAddr_lt _, rfl⟩, rfl⟩

theorem push8_error_iff {v : Byte} {s : State} {f : Fault} :
    push8 v s = .error f ↔ s.sp = 0x00 ∧ f = .stackOverflow (s.faulted .stackOverflow) := by
  unfold push8 raiseStackOverflow
  by_cases h : s.sp = 0x00
  · simp [h, eq_comm]
  · rw [if_neg h, bind_error_iff]
    constructor
    · rintro (hu | ⟨u, _, ht⟩)
      · exact absurd (stackAddr_lt s.sp) (Nat.not_lt.mpr (memWrite_error_iff.mp hu).1)
      · cases ht
    · exact fun hu => absurd hu.1 h

theorem pop8_ok_iff {s : State} {r : Byte × State} :
    pop8 s = .ok r ↔
      s.sp ≠ 0xFF ∧ r = (cellAt s.mem (stackAddr (s.sp + 1)), s.withSp (s.sp + 1)) := by
  unfold pop8 raiseStackUnderflow
  by_cases h : s.sp = 0xFF
  · simp [h]
  · rw [if_neg h, memRead_plain _ (stackAddr_lt _) (stackAddr_ne_random _)]
    exact ⟨fun hr => by cases hr; exact ⟨h, rfl⟩, fun hr => by rw [hr.2]; rfl⟩

theorem pop8_error_iff {s : State} {f : Fault} :
    pop8 s = .error f ↔ s.sp = 0xFF ∧ f = .stackUnderflow (s.faulted .stackUnderflow) := by
  unfold pop8 raiseStackUnderflow
  by_cases h : s.sp = 0xFF
  · simp [h, eq_comm]
  · rw [if_neg h, memRead_plain _ (stackAddr_lt _) (stackAddr_ne_random _)]
    exact ⟨fun hr => (by cases hr), fun hr => absurd hr.1 h⟩

theorem push16_ok_iff {w : Word} {s t : State} :
    push16 w s = .ok t ↔
      s.sp ≠ 0x00 ∧ s.sp - 1 ≠ 0x00 ∧
        t = (storeCell (stackAddr (s.sp - 1)) (loByte w)
          ((storeCell (stackAddr s.sp) (hiByte w) s).withSp (s.sp - 1))).withSp (s.sp - 1 - 1) := by
  unfold push16
  rw [bind_ok_iff]
  constructor
  · rintro ⟨u, hu, ht⟩
    obtain ⟨h1, rfl⟩ := push8_ok_iff.mp hu
    obtain ⟨h2, rfl⟩ := push8_ok_iff.mp ht
    exact ⟨h1, h2, rfl⟩
  · rintro ⟨h1, h2, rfl⟩
    exact ⟨_, push8_ok_iff.mpr ⟨h1, rfl⟩, push8_ok_iff.mpr ⟨h2, rfl⟩⟩

theorem push16_error_iff {w : Word} {s : State} {f : Fault} :
    push16 w s = .error f ↔
      (s.sp = 0x00 ∧ f = .stackOverflow (s.faulted .stackOverflow)) ∨
      (s.sp = 0x01 ∧ f = .stackOverflow
        (((storeCell (stackAddr s.sp) (hiByte w) s).withSp (s.sp - 1)).faulted .stackOverflow)) := by
  unfold push16
  rw [bind_error_iff, push8_error_iff]
  refine or_congr Iff.rfl ⟨?_, ?_⟩
  · rintro ⟨u, hu, ht⟩
    obtain ⟨h1, rfl⟩ := push8_ok_iff.mp hu
    obtain ⟨h2, rfl⟩ := push8_error_iff.mp ht
    refine ⟨?_, rfl⟩
    have h2 : s.sp - 1 = 0x00 := h2
    exact BitVec.sub_eq_iff_eq_add.mp h2
  · rintro ⟨h, rfl⟩
    exact ⟨_, push8_ok_iff.mpr ⟨by rw [h]; decide, rfl⟩, push8_error_iff.mpr ⟨by
      show s.sp - 1 = 0x00
      rw [h]; rfl, rfl⟩⟩

theorem pop16_ok_iff {s : State} {r : Word × State} :
    pop16 s = .ok r ↔
      s.sp ≠ 0xFF ∧ s.sp + 1 ≠ 0xFF ∧
        r = (wordOf (cellAt s.mem (stackAddr (s.sp + 1 + 1))) (cellAt s.mem (stackAddr (s.sp + 1))),
          s.withSp (s.sp + 1 + 1)) := by
  unfold pop16
  rw [bind_ok_iff]
  constructor
  · rintro ⟨lo, hlo, h⟩
    obtain ⟨h1, rfl⟩ := pop8_ok_iff.mp hlo
    obtain ⟨hi, hhi, h⟩ := bind_ok_iff.mp h
    obtain ⟨h2, rfl⟩ := pop8_ok_iff.mp hhi
    cases h
    exact ⟨h1, h2, rfl⟩
  · rintro ⟨h1, h2, rfl⟩
    exact ⟨_, pop8_ok_iff.mpr ⟨h1, rfl⟩, bind_ok_iff.mpr ⟨_, pop8_ok_iff.mpr ⟨h2, rfl⟩, rfl⟩⟩

theorem pop16_error_iff {s : State} {f : Fault} :
    pop16 s = .error f ↔
      (s.sp = 0xFF ∧ f = .stackUnderflow (s.faulted .stackUnderflow)) ∨
      (s.sp = 0xFE ∧ f = .stackUnderflow ((s.withSp (s.sp + 1)).faulted .stackUnderflow)) := by
  unfold pop16
  rw [bind_error_iff, pop8_error_iff]
  refine or_congr Iff.rfl ⟨?_, ?_⟩
  · rintro ⟨lo, hlo, h⟩
    obtain ⟨h1, rfl⟩ := pop8_ok_iff.mp hlo
    obtain h | ⟨hi, _, h⟩ := bind_error_iff.mp h
    · obtain ⟨h2, rfl⟩ := pop8_error_iff.mp h
      refine ⟨?_, rfl⟩
      have h2 : s.sp + 1 = 0xFF := h2
      have := BitVec.eq_sub_iff_add_eq.mpr h2
      simpa using this
    · cases h
  · rintro ⟨h, rfl⟩
    exact ⟨_, pop8_ok_iff.mpr ⟨by rw [h]; decide, rfl⟩, bind_error_iff.mpr (.inl (pop8_error_iff.mpr ⟨by
      show s.sp + 1 = 0xFF
      rw [h]; rfl, rfl⟩))⟩

theorem popFlags_ok_iff {s t : State} :
    popFlags s = .ok t ↔
      s.sp ≠ 0xFF ∧ t = (s.withSp (s.sp + 1)).withP
        (flagsFromByte (cellAt s.mem (stackAddr (s.sp + 1)) &&& 0xDF)) := by
  unfold popFlags
  rw [bind_ok_iff]
  constructor
  · rintro ⟨b, hb, h⟩
    obtain ⟨h1, rfl⟩ := pop8_ok_iff.mp hb
    cases h
    exact ⟨h1, rfl⟩
  · rintro ⟨h1, rfl⟩
    exact ⟨_, pop8_ok_iff.mpr ⟨h1, rfl⟩, rfl⟩

theorem popFlags_error_iff {s : State} {f : Fault} :
    popFlags s = .error f ↔ s.sp = 0xFF ∧ f = .stackUnderflow (s.faulted .stackUnderflow) := by
  unfold popFlags
  rw [bind_error_iff, pop8_error_iff]
  constructor
  · rintro (h | ⟨_, _, h⟩)
    · exact h
    · cases h
  · exact Or.inl

/-- Bit 5 of a popped flag byte plays no part (10 R48, R50). -/
@[simp] theorem flagsFromByte_mask (b : Byte) : flagsFromByte (b &&& 0xDF) = flagsFromByte b := by
  simp [flagsFromByte]

end Sys2Proof.Machine
end

