-- ==== Sys2Proof/Laws/Operands.lean ====
section
/-! SUPPORT. What the resolver and the shared instruction shapes can do. -/

namespace Sys2Proof.Machine

open Sys2Proof

theorem checkedAdd16_ok_iff {a : Nat} {d : Byte} {s : State} {r : Nat × State} :
    checkedAdd16 a d s = .ok r ↔ a + d.toNat ≤ addrMax ∧ r = (a + d.toNat, s) := by
  unfold checkedAdd16 raiseAddressCalculation
  by_cases h : addrMax < a + d.toNat
  · simp [h, Nat.not_le.mpr h]
  · simp [h, Nat.not_lt.mp h, eq_comm]

theorem checkedAdd16_error_iff {a : Nat} {d : Byte} {s : State} {f : Fault} :
    checkedAdd16 a d s = .error f ↔
      addrMax < a + d.toNat ∧ f = .addressCalculation (s.faulted .addressCalculation) := by
  unfold checkedAdd16 raiseAddressCalculation
  by_cases h : addrMax < a + d.toNat <;> simp [h, eq_comm]

theorem indexed_same {base : Nat} {idx : Index} {s : State} {r : Nat × State} (h : indexed base idx s = .ok r) :
    r.2 = s := by
  cases idx <;> simp only [indexed, checkedAdd16_ok_iff, Except.ok.injEq] at h
  · rw [← h]
  · rw [h.2]
  · rw [h.2]

theorem indexed_error {base : Nat} {idx : Index} {s : State} {f : Fault} (h : indexed base idx s = .error f) :
    f = .addressCalculation (s.faulted .addressCalculation) := by
  cases idx <;> simp only [indexed, checkedAdd16_error_iff, reduceCtorEq] at h
  · exact h.2
  · exact h.2

theorem checkedAddSigned16_ok_iff {a : Nat} {d : Byte} {s : State} {r : Nat × State} :
    checkedAddSigned16 a d s = .ok r ↔
      (0 ≤ (a : Int) + d.toInt ∧ (a : Int) + d.toInt ≤ 0xFFFF) ∧ r = (((a : Int) + d.toInt).toNat, s) := by
  unfold checkedAddSigned16 raiseAddressCalculation
  dsimp only
  have hm : ((addrMax : Nat) : Int) = 0xFFFF := rfl
  rw [hm]
  by_cases h : (a : Int) + d.toInt < 0 ∨ (0xFFFF : Int) < a + d.toInt
  · rw [if_pos h]
    exact ⟨fun h' => (by cases h'), fun h' => (by omega)⟩
  · rw [if_neg h]
    simp only [Except.ok.injEq]
    exact ⟨fun h' => ⟨by omega, h'.symm⟩, fun h' => h'.2.symm⟩

theorem checkedAddSigned16_same {a : Nat} {d : Byte} {s : State} {r : Nat × State}
    (h : checkedAddSigned16 a d s = .ok r) : r.2 = s := by
  rw [(checkedAddSigned16_ok_iff.mp h).2]

theorem checkedAddSigned16_error {a : Nat} {d : Byte} {s : State} {f : Fault}
    (h : checkedAddSigned16 a d s = .error f) : f = .addressCalculation (s.faulted .addressCalculation) := by
  unfold checkedAddSigned16 raiseAddressCalculation at h
  dsimp only at h
  split at h
  · cases h; rfl
  · cases h

theorem checkedAddSigned16_error_iff {a : Nat} {d : Byte} {s : State} {f : Fault} :
    checkedAddSigned16 a d s = .error f ↔
      ¬(0 ≤ (a : Int) + d.toInt ∧ (a : Int) + d.toInt ≤ 0xFFFF) ∧
        f = .addressCalculation (s.faulted .addressCalculation) := by
  cases h : checkedAddSigned16 a d s with
  | ok r => simp only [reduceCtorEq, false_iff]; exact fun hn => hn.1 (checkedAddSigned16_ok_iff.mp h).1
  | error g =>
    rw [Except.error.injEq, checkedAddSigned16_error h]
    refine ⟨fun hf => ⟨fun hr => ?_, hf.symm⟩, fun hf => hf.2.symm⟩
    rw [checkedAddSigned16_ok_iff.mpr ⟨hr, rfl⟩] at h
    cases h

/-- Resolving an address changes nothing but the draws (40 R140). -/
theorem resolveAddress_same {m : AddrMode} {s : State} {r : Nat × State} (h : resolveAddress m s = .ok r) :
    SameButDraws s r.2 := by
  cases m with
  | zeroPage b idx => rw [indexed_same h]; exact .refl s
  | absolute w idx => rw [indexed_same h]; exact .refl s
  | relative b => rw [checkedAddSigned16_same h]; exact .refl s
  | indirect w =>
    obtain ⟨t, ht, h⟩ := bind_ok_iff.mp h
    cases h
    exact memRead16_same ht
  | indexedIndirect b =>
    obtain ⟨t, ht, h⟩ := bind_ok_iff.mp h
    cases h
    exact memRead16_same ht
  | indirectIndexed b =>
    obtain ⟨t, ht, h⟩ := bind_ok_iff.mp h
    rw [(checkedAdd16_ok_iff.mp h).2]
    exact memRead16_same ht

/-- What an operand access may raise: `OutOfBounds` or `AddressCalculation`, with nothing changed but the draws. -/
def OperandFault (s : State) (f : Fault) : Prop :=
  ∃ t, SameButDraws s t ∧
    ((∃ a, memSize ≤ a ∧ f = .outOfBounds a (t.faulted .outOfBounds)) ∨
      f = .addressCalculation (t.faulted .addressCalculation))

theorem OperandFault.ofRead16 {a : Nat} {s : State} {f : Fault} (h : memRead16 a s = .error f) : OperandFault s f := by
  obtain ⟨b, t, hb, ht, rfl⟩ := memRead16_error h
  exact ⟨t, ht, .inl ⟨b, hb, rfl⟩⟩

theorem OperandFault.trans {s t : State} {f : Fault} (h : SameButDraws s t) (hf : OperandFault t f) :
    OperandFault s f := by
  obtain ⟨u, hu, hf⟩ := hf
  exact ⟨u, h.trans hu, hf⟩

/-- The machine at an operand fault differs from the one before in nothing but the draws and the status. -/
theorem OperandFault.same {s : State} {f : Fault} (h : OperandFault s f) :
    SameButDraws s (f.state.withStatus s.status) := by
  obtain ⟨t, ht, ⟨a, _, rfl⟩ | rfl⟩ := h
  all_goals
    unfold SameButDraws at *
    rw [ht]
    rfl

theorem resolveAddress_error {m : AddrMode} {s : State} {f : Fault} (h : resolveAddress m s = .error f) :
    OperandFault s f := by
  cases m with
  | zeroPage b idx => exact ⟨s, .refl s, .inr (indexed_error h)⟩
  | absolute w idx => exact ⟨s, .refl s, .inr (indexed_error h)⟩
  | relative b => exact ⟨s, .refl s, .inr (checkedAddSigned16_error h)⟩
  | indirect w =>
    obtain h | ⟨t, _, h⟩ := bind_error_iff.mp h
    · exact .ofRead16 h
    · cases h
  | indexedIndirect b =>
    obtain h | ⟨t, _, h⟩ := bind_error_iff.mp h
    · exact .ofRead16 h
    · cases h
  | indirectIndexed b =>
    obtain h | ⟨t, ht, h⟩ := bind_error_iff.mp h
    · exact .ofRead16 h
    · exact ⟨t.2, memRead16_same ht, .inr (checkedAdd16_error_iff.mp h).2⟩

theorem memRead_operandFault {a : Nat} {s : State} {f : Fault} (h : memRead a s = .error f) : OperandFault s f := by
  obtain ⟨hb, rfl⟩ := memRead_error_iff.mp h
  exact ⟨s, .refl s, .inl ⟨a, hb, rfl⟩⟩

theorem memWrite_operandFault {a : Nat} {v : Byte} {s : State} {f : Fault} (h : memWrite a v s = .error f) :
    OperandFault s f := by
  obtain ⟨hb, rfl⟩ := memWrite_error_iff.mp h
  exact ⟨s, .refl s, .inl ⟨a, hb, rfl⟩⟩

/-- An operand is an immediate byte, or the byte at the resolved address. -/
theorem readOperand_immediate (b : Byte) (s : State) : readOperand (.immediate b) s = .ok (b, s) := rfl

theorem readOperand_address (m : AddrMode) (s : State) :
    readOperand (.address m) s = (resolveAddress m s >>= fun a => memRead a.1 a.2) := by
  cases h : resolveAddress m s <;> simp [readOperand, resolve, load, h, bind, Except.bind]

theorem readOperand_same {m : OperandMode} {s : State} {r : Byte × State} (h : readOperand m s = .ok r) :
    SameButDraws s r.2 := by
  cases m with
  | immediate b => cases h; exact .refl s
  | address m =>
    rw [readOperand_address] at h
    obtain ⟨a, ha, h⟩ := bind_ok_iff.mp h
    exact (resolveAddress_same ha).trans (memRead_same h)

theorem readOperand_error {m : OperandMode} {s : State} {f : Fault} (h : readOperand m s = .error f) :
    OperandFault s f := by
  cases m with
  | immediate b => cases h
  | address m =>
    rw [readOperand_address] at h
    obtain h | ⟨a, ha, h⟩ := bind_error_iff.mp h
    · exact resolveAddress_error h
    · exact (memRead_operandFault h).trans (resolveAddress_same ha)

/-! ## Shapes -/

theorem readThen_next_iff {f : Byte → State → State} {m : OperandMode} {s t : State} :
    readThen f m s = .next t ↔ ∃ r, readOperand m s = .ok r ∧ t = advance (f r.1 r.2) := by
  unfold readThen
  simp only [finish_next_iff, bind_ok_iff, Except.ok.injEq]
  exact exists_congr fun r => and_congr_right fun _ => eq_comm

theorem readThen_fault_iff {f : Byte → State → State} {m : OperandMode} {s : State} {e : Fault} :
    readThen f m s = .fault e ↔ readOperand m s = .error e := by
  unfold readThen
  simp [finish_fault_iff, bind_error_iff]

theorem storeThen_next_iff {v : Byte} {m : AddrMode} {s t : State} :
    storeThen v m s = .next t ↔
      ∃ a, resolveAddress m s = .ok a ∧ a.1 < memSize ∧ t = advance (storeCell a.1 v a.2) := by
  unfold storeThen
  simp only [finish_next_iff, bind_ok_iff, memWrite_ok_iff, Except.ok.injEq]
  refine exists_congr fun a => and_congr_right fun _ => ⟨?_, ?_⟩
  · rintro ⟨_, ⟨h, rfl⟩, rfl⟩
    exact ⟨h, rfl⟩
  · rintro ⟨h, rfl⟩
    exact ⟨_, ⟨h, rfl⟩, rfl⟩

theorem storeThen_fault_iff {v : Byte} {m : AddrMode} {s : State} {e : Fault} :
    storeThen v m s = .fault e ↔
      resolveAddress m s = .error e ∨
      ∃ a, resolveAddress m s = .ok a ∧ memSize ≤ a.1 ∧ e = .outOfBounds a.1 (a.2.faulted .outOfBounds) := by
  unfold storeThen
  simp [finish_fault_iff, bind_error_iff, memWrite_error_iff]

theorem modifyThen_next_iff {f : Byte → Flags → Byte × Flags} {m : AddrMode} {s t : State} :
    modifyThen f m s = .next t ↔
      ∃ a v, resolveAddress m s = .ok a ∧ memRead a.1 a.2 = .ok v ∧
        t = advance ((storeCell a.1 (f v.1 v.2.p).1 v.2).withP (f v.1 v.2.p).2) := by
  unfold modifyThen
  simp only [finish_next_iff, bind_ok_iff, memWrite_ok_iff, Except.ok.injEq]
  constructor
  · rintro ⟨a, ha, v, hv, _, ⟨_, rfl⟩, rfl⟩
    exact ⟨a, v, ha, hv, rfl⟩
  · rintro ⟨a, v, ha, hv, rfl⟩
    exact ⟨a, ha, v, hv, _, ⟨(memRead_ok_iff.mp hv).1, rfl⟩, rfl⟩

theorem modifyThen_fault_iff {f : Byte → Flags → Byte × Flags} {m : AddrMode} {s : State} {e : Fault} :
    modifyThen f m s = .fault e ↔
      resolveAddress m s = .error e ∨ ∃ a, resolveAddress m s = .ok a ∧ memRead a.1 a.2 = .error e := by
  unfold modifyThen
  simp only [finish_fault_iff, bind_error_iff, memWrite_error_iff, reduceCtorEq, and_false, exists_false, or_false]
  refine or_congr_right (exists_congr fun a => and_congr_right fun _ => or_iff_left ?_)
  rintro ⟨v, hv, h, _⟩
  exact absurd (memRead_ok_iff.mp hv).1 (Nat.not_lt.mpr h)

end Sys2Proof.Machine
end

