-- ==== Sys2Proof/Laws/Dispatch.lean ====
section
/-! SUPPORT. `exec` by mnemonic and mode: the 152 arms are 57 meanings, each over the modes its mnemonic has. Proofs
about all rows of a mnemonic cite `exec_eq` and never split `exec` themselves. -/

namespace Sys2Proof.Machine

open Sys2Proof

/-- The meaning of a mnemonic that reads an operand. -/
def readMeaning : Mnemonic → Byte → State → State
  | .lda => setA
  | .ldx => setX
  | .ldy => setY
  | .adc => aluToA adcAlu
  | .sbc => aluToA sbcAlu
  | .and => fun v s => setA (s.a &&& v) s
  | .ora => fun v s => setA (s.a ||| v) s
  | .eor => fun v s => setA (s.a ^^^ v) s
  | .bit => fun v s => s.withP (bitFlags s.a v s.p)
  | .cmp => fun v s => s.withP (compareFlags s.a v s.p)
  | .cpx => fun v s => s.withP (compareFlags s.x v s.p)
  | .cpy => fun v s => s.withP (compareFlags s.y v s.p)
  | _ => fun _ s => s

/-- The register whose byte a mnemonic stores. -/
def storedByte (mn : Mnemonic) (s : State) : Byte :=
  match mn with
  | .stx => s.x
  | .sty => s.y
  | _ => s.a

/-- The function of a read-modify-write mnemonic. -/
def modifyMeaning : Mnemonic → Byte → Flags → Byte × Flags
  | .inc => incAlu
  | .dec => decAlu
  | .asl => shiftAlu aslFn
  | .lsr => shiftAlu lsrFn
  | .rol => shiftAlu rolFn
  | .ror => shiftAlu rorFn
  | _ => fun v p => (v, p)

/-- The change a one-byte register or flag instruction makes before it advances. -/
def registerMeaning : Mnemonic → State → State
  | .tax => fun s => setX s.a s
  | .tay => fun s => setY s.a s
  | .txa => fun s => setA s.x s
  | .tya => fun s => setA s.y s
  | .tsx => fun s => setX s.sp s
  | .txs => fun s => s.withSp s.x
  | .inx => fun s => setX (s.x + 1) s
  | .iny => fun s => setY (s.y + 1) s
  | .dex => fun s => setX (s.x - 1) s
  | .dey => fun s => setY (s.y - 1) s
  | .clc => fun s => s.withP { s.p with c := false }
  | .sec => fun s => s.withP { s.p with c := true }
  | .cli => fun s => s.withP { s.p with i := false }
  | .sei => fun s => s.withP { s.p with i := true }
  | .clv => fun s => s.withP { s.p with v := false }
  | .cld => fun s => s.withP { s.p with d := false }
  | .sed => fun s => s.withP { s.p with d := true }
  | _ => fun s => s

/-- What an instruction does, by the shape of its form. -/
inductive Shape where
  | read (mn : Mnemonic) (m : OperandMode)
  | store (mn : Mnemonic) (m : AddrMode)
  | modify (mn : Mnemonic) (m : AddrMode)
  | shiftA (mn : Mnemonic)
  | register (mn : Mnemonic)
  | branch (mn : Mnemonic) (flag : FlagName) (want : Bool) (b : Byte)
  | jump (m : AddrMode)
  | call (w : Word)
  | other (mn : Mnemonic)
  deriving DecidableEq, Repr

/-- The shape of an instruction, from its mnemonic and mode alone. -/
def shapeOf (mn : Mnemonic) (m : Mode) : Shape :=
  match m with
  | .implied =>
    if mn.pushes || mn.pops || mn = .halt then .other mn else .register mn
  | .accumulator => .shiftA mn
  | .operand (.immediate b) => .read mn (.immediate b)
  | .operand (.address a) =>
    if mn.readsOperand then .read mn (.address a)
    else if mn.stores then .store mn a
    else if mn.modifies then .modify mn a
    else
      match a with
      | .relative b =>
        match branchTest mn with
        | some (flag, want) => .branch mn flag want b
        | none => .other mn
      | .absolute w _ => if mn = .jsr then .call w else .jump a
      | _ => .jump a

/-- What a shape answers. -/
def Shape.run (sh : Shape) (s : State) : Answer :=
  match sh with
  | .read mn m => readThen (readMeaning mn) m s
  | .store mn m => storeThen (storedByte mn s) m s
  | .modify mn m => modifyThen (modifyMeaning mn) m s
  | .shiftA mn => .next (advance ((s.withA (modifyMeaning mn s.a s.p).1).withP (modifyMeaning mn s.a s.p).2))
  | .register mn => .next (advance (registerMeaning mn s))
  | .branch _ flag want b =>
    if s.p.get flag = want then finish (jumpTo (.relative b) s) else .next (advance s)
  | .jump m => finish (jumpTo m s)
  | .call w => jsr w s
  | .other .pha => pha s
  | .other .pla => pla s
  | .other .php => php s
  | .other .plp => plp s
  | .other .rts => rts s
  | .other .brk => brk s
  | .other .rti => rti s
  | .other .halt => halt s
  | .other _ => .next s

theorem branch_on_clear (c : Bool) (b : Byte) (s : State) :
    branch (!c) b s = if c = false then finish (jumpTo (.relative b) s) else .next (advance s) := by
  cases c <;> rfl

/-- `exec` is its shape: the one place where its 152 arms are opened. -/
theorem exec_eq (i : Instr) (s : State) : exec i s = (shapeOf i.mnemonic i.mode).run s := by
  cases i
  case bpl b => exact branch_on_clear s.p.n b s
  case bvc b => exact branch_on_clear s.p.v b s
  case bcc b => exact branch_on_clear s.p.c b s
  case bne b => exact branch_on_clear s.p.z b s
  all_goals rfl

/-- Which shape an instruction has, with what its mnemonic and mode are then. -/
inductive HasShape (i : Instr) : Shape → Prop where
  | read (m : OperandMode) (hm : i.mode = .operand m) (h : i.mnemonic.readsOperand = true) :
      HasShape i (.read i.mnemonic m)
  | store (m : AddrMode) (hm : i.mode = .operand (.address m)) (h : i.mnemonic.stores = true) :
      HasShape i (.store i.mnemonic m)
  | modify (m : AddrMode) (hm : i.mode = .operand (.address m)) (h : i.mnemonic.modifies = true) :
      HasShape i (.modify i.mnemonic m)
  | shiftA (hm : i.mode = .accumulator) (h : i.mnemonic ∈ [.asl, .lsr, .rol, .ror]) : HasShape i (.shiftA i.mnemonic)
  | register (hm : i.mode = .implied) (hp : i.mnemonic.pushes = false) (hq : i.mnemonic.pops = false)
      (hh : i.mnemonic ≠ .halt) : HasShape i (.register i.mnemonic)
  | branch (flag : FlagName) (want : Bool) (b : Byte) (hm : i.mode = .operand (.address (.relative b)))
      (h : branchTest i.mnemonic = some (flag, want)) : HasShape i (.branch i.mnemonic flag want b)
  | jump (m : AddrMode) (hm : i.mode = .operand (.address m)) (h : i.mnemonic = .jmp) : HasShape i (.jump m)
  | call (w : Word) (h : i = .jsr w) : HasShape i (.call w)
  | other (h : i ∈ [.pha, .pla, .php, .plp, .rts, .brk, .rti, .halt]) : HasShape i (.other i.mnemonic)

/-- Every instruction has the shape `exec_eq` runs: case analysis on this has nine cases, not 152. -/
theorem hasShape (i : Instr) : HasShape i (shapeOf i.mnemonic i.mode) := by
  cases i
  all_goals first
    | exact .read _ rfl rfl
    | exact .store _ rfl rfl
    | exact .modify _ rfl rfl
    | exact .shiftA rfl (by decide)
    | exact .register rfl rfl rfl (by decide)
    | exact .branch _ _ _ rfl rfl
    | exact .jump _ rfl rfl
    | exact .call _ rfl
    | exact .other (by decide)

end Sys2Proof.Machine
end

