-- ==== Sys2Proof/Laws/Keeps.lean ====
section
/-! SUPPORT. What every operation of an instruction's body keeps when it goes on, and what it may raise. -/

namespace Sys2Proof.Machine

open Sys2Proof

/-- What every operation of an instruction's body keeps. -/
structure Keeps (s t : State) : Prop where
  snapshot : t.snapshot = s.snapshot
  running : t.running = s.running
  host : t.host = s.host
  hostRest : t.hostRest = s.hostRest
  status : t.status = s.status
  draws : t.draws <:+ s.draws
  count : s.drawCount ≤ t.drawCount
  wf : Memory.wf memSize s.mem = true → Memory.wf memSize t.mem = true

theorem Keeps.refl (s : State) : Keeps s s := ⟨rfl, rfl, rfl, rfl, rfl, List.suffix_refl _, Nat.le_refl _, id⟩
theorem Keeps.trans {s t u : State} (h : Keeps s t) (h' : Keeps t u) : Keeps s u :=
  ⟨h'.1.trans h.1, h'.2.trans h.2, h'.3.trans h.3, h'.4.trans h.4, h'.5.trans h.5, h'.6.trans h.6,
    Nat.le_trans h.7 h'.7, h'.8 ∘ h.8⟩

/-- What the body of an instruction may raise. -/
inductive BodyFault (s : State) : Fault → Prop
  | outOfBounds (a : Nat) (t : State) (h : Keeps s t) (ha : memSize ≤ a) :
      BodyFault s (.outOfBounds a (t.faulted .outOfBounds))
  | addressCalculation (t : State) (h : Keeps s t) : BodyFault s (.addressCalculation (t.faulted .addressCalculation))
  | stackOverflow (t : State) (h : Keeps s t) : BodyFault s (.stackOverflow (t.faulted .stackOverflow))
  | stackUnderflow (t : State) (h : Keeps s t) : BodyFault s (.stackUnderflow (t.faulted .stackUnderflow))
  | invalidTarget (a : Nat) (t : State) (h : Keeps s t) (ha : memSize ≤ a) :
      BodyFault s (.invalidTarget a (t.faulted .invalidTarget))

theorem BodyFault.trans {s t : State} {f : Fault} (h : Keeps s t) (hf : BodyFault t f) : BodyFault s f := by
  cases hf with
  | outOfBounds a u hu ha => exact .outOfBounds a u (h.trans hu) ha
  | addressCalculation u hu => exact .addressCalculation u (h.trans hu)
  | stackOverflow u hu => exact .stackOverflow u (h.trans hu)
  | stackUnderflow u hu => exact .stackUnderflow u (h.trans hu)
  | invalidTarget a u hu ha => exact .invalidTarget a u (h.trans hu) ha

theorem draw_keeps (s : State) : Keeps s (draw s).2 := by
  unfold draw
  cases hd : s.draws with
  | nil => exact ⟨rfl, rfl, rfl, rfl, rfl, List.suffix_refl _, Nat.le_succ _, id⟩
  | cons d ds => exact ⟨rfl, rfl, rfl, rfl, rfl, by rw [hd]; exact List.suffix_cons d ds, Nat.le_refl _, id⟩

theorem memRead_keeps {a : Nat} {s : State} {r : Byte × State} (h : memRead a s = .ok r) : Keeps s r.2 := by
  obtain ⟨_, ⟨_, rfl⟩ | ⟨_, rfl⟩⟩ := memRead_ok_iff.mp h
  · exact draw_keeps s
  · exact .refl s

theorem memRead_fault {a : Nat} {s : State} {f : Fault} (h : memRead a s = .error f) : BodyFault s f := by
  obtain ⟨ha, rfl⟩ := memRead_error_iff.mp h
  exact .outOfBounds a s (.refl s) ha

theorem memRead16_keeps {a : Nat} {s : State} {r : Word × State} (h : memRead16 a s = .ok r) : Keeps s r.2 := by
  obtain ⟨lo, hi, hlo, _, hhi, rfl⟩ := memRead16_ok_iff.mp h
  exact (memRead_keeps hlo).trans (memRead_keeps hhi)

theorem memRead16_fault {a : Nat} {s : State} {f : Fault} (h : memRead16 a s = .error f) : BodyFault s f := by
  unfold memRead16 at h
  obtain h | ⟨lo, hlo, h⟩ := bind_error_iff.mp h
  · exact memRead_fault h
  · split at h
    · cases h; exact .addressCalculation _ (memRead_keeps hlo)
    · obtain h | ⟨hi, _, h⟩ := bind_error_iff.mp h
      · exact (memRead_fault h).trans (memRead_keeps hlo)
      · cases h

theorem storeCell_keeps {a : Nat} (v : Byte) (s : State) (ha : a < memSize) : Keeps s (storeCell a v s) :=
  ⟨rfl, rfl, rfl, rfl, rfl, List.suffix_refl _, Nat.le_refl _, fun h => setCell_wf v h ha⟩

theorem memWrite_keeps {a : Nat} {v : Byte} {s t : State} (h : memWrite a v s = .ok t) : Keeps s t := by
  obtain ⟨ha, rfl⟩ := memWrite_ok_iff.mp h
  exact storeCell_keeps v s ha

theorem memWrite_fault {a : Nat} {v : Byte} {s : State} {f : Fault} (h : memWrite a v s = .error f) :
    BodyFault s f := by
  obtain ⟨ha, rfl⟩ := memWrite_error_iff.mp h
  exact .outOfBounds a s (.refl s) ha

theorem push8_keeps {v : Byte} {s t : State} (h : push8 v s = .ok t) : Keeps s t := by
  obtain ⟨_, rfl⟩ := push8_ok_iff.mp h
  exact ⟨rfl, rfl, rfl, rfl, rfl, List.suffix_refl _, Nat.le_refl _, fun h => setCell_wf v h (stackAddr_lt _)⟩

theorem push8_fault {v : Byte} {s : State} {f : Fault} (h : push8 v s = .error f) : BodyFault s f := by
  obtain ⟨_, rfl⟩ := push8_error_iff.mp h
  exact .stackOverflow s (.refl s)

theorem pop8_keeps {s : State} {r : Byte × State} (h : pop8 s = .ok r) : Keeps s r.2 := by
  obtain ⟨_, rfl⟩ := pop8_ok_iff.mp h
  exact ⟨rfl, rfl, rfl, rfl, rfl, List.suffix_refl _, Nat.le_refl _, id⟩

theorem pop8_fault {s : State} {f : Fault} (h : pop8 s = .error f) : BodyFault s f := by
  obtain ⟨_, rfl⟩ := pop8_error_iff.mp h
  exact .stackUnderflow s (.refl s)

theorem push16_keeps {w : Word} {s t : State} (h : push16 w s = .ok t) : Keeps s t := by
  obtain ⟨u, hu, h⟩ := bind_ok_iff.mp h
  exact (push8_keeps hu).trans (push8_keeps h)

theorem push16_fault {w : Word} {s : State} {f : Fault} (h : push16 w s = .error f) : BodyFault s f := by
  obtain h | ⟨u, hu, h⟩ := bind_error_iff.mp h
  · exact push8_fault h
  · exact (push8_fault h).trans (push8_keeps hu)

theorem pop16_keeps {s : State} {r : Word × State} (h : pop16 s = .ok r) : Keeps s r.2 := by
  obtain ⟨lo, hlo, h⟩ := bind_ok_iff.mp h
  obtain ⟨hi, hhi, h⟩ := bind_ok_iff.mp h
  cases h
  exact (pop8_keeps hlo).trans (pop8_keeps hhi)

theorem pop16_fault {s : State} {f : Fault} (h : pop16 s = .error f) : BodyFault s f := by
  obtain h | ⟨lo, hlo, h⟩ := bind_error_iff.mp h
  · exact pop8_fault h
  · obtain h | ⟨hi, _, h⟩ := bind_error_iff.mp h
    · exact (pop8_fault h).trans (pop8_keeps hlo)
    · cases h

theorem popFlags_keeps {s t : State} (h : popFlags s = .ok t) : Keeps s t := by
  obtain ⟨_, rfl⟩ := popFlags_ok_iff.mp h
  exact ⟨rfl, rfl, rfl, rfl, rfl, List.suffix_refl _, Nat.le_refl _, id⟩

theorem popFlags_fault {s : State} {f : Fault} (h : popFlags s = .error f) : BodyFault s f := by
  obtain ⟨_, rfl⟩ := popFlags_error_iff.mp h
  exact .stackUnderflow s (.refl s)

theorem goto_keeps {a : Nat} {s t : State} (h : goto a s = .ok t) : Keeps s t := by
  obtain ⟨_, rfl⟩ := goto_ok_iff.mp h
  exact ⟨rfl, rfl, rfl, rfl, rfl, List.suffix_refl _, Nat.le_refl _, id⟩

theorem goto_fault {a : Nat} {s : State} {f : Fault} (h : goto a s = .error f) : BodyFault s f := by
  obtain ⟨ha, rfl⟩ := goto_error_iff.mp h
  exact .invalidTarget a s (.refl s) ha

theorem resolveAddress_keeps {m : AddrMode} {s : State} {r : Nat × State} (h : resolveAddress m s = .ok r) :
    Keeps s r.2 := by
  cases m with
  | zeroPage b idx => rw [indexed_same h]; exact .refl s
  | absolute w idx => rw [indexed_same h]; exact .refl s
  | relative b => rw [checkedAddSigned16_same h]; exact .refl s
  | indirect w =>
    obtain ⟨t, ht, h⟩ := bind_ok_iff.mp h
    cases h
    exact memRead16_keeps ht
  | indexedIndirect b =>
    obtain ⟨t, ht, h⟩ := bind_ok_iff.mp h
    cases h
    exact memRead16_keeps ht
  | indirectIndexed b =>
    obtain ⟨t, ht, h⟩ := bind_ok_iff.mp h
    rw [(checkedAdd16_ok_iff.mp h).2]
    exact memRead16_keeps ht

theorem resolveAddress_fault {m : AddrMode} {s : State} {f : Fault} (h : resolveAddress m s = .error f) :
    BodyFault s f := by
  cases m with
  | zeroPage b idx => rw [indexed_error h]; exact .addressCalculation s (.refl s)
  | absolute w idx => rw [indexed_error h]; exact .addressCalculation s (.refl s)
  | relative b => rw [checkedAddSigned16_error h]; exact .addressCalculation s (.refl s)
  | indirect w =>
    obtain h | ⟨t, _, h⟩ := bind_error_iff.mp h
    · exact memRead16_fault h
    · cases h
  | indexedIndirect b =>
    obtain h | ⟨t, _, h⟩ := bind_error_iff.mp h
    · exact memRead16_fault h
    · cases h
  | indirectIndexed b =>
    obtain h | ⟨t, ht, h⟩ := bind_error_iff.mp h
    · exact memRead16_fault h
    · rw [(checkedAdd16_error_iff.mp h).2]; exact .addressCalculation _ (memRead16_keeps ht)

theorem readOperand_keeps {m : OperandMode} {s : State} {r : Byte × State} (h : readOperand m s = .ok r) :
    Keeps s r.2 := by
  cases m with
  | immediate b => cases h; exact .refl s
  | address m =>
    rw [readOperand_address] at h
    obtain ⟨a, ha, h⟩ := bind_ok_iff.mp h
    exact (resolveAddress_keeps ha).trans (memRead_keeps h)

theorem readOperand_fault {m : OperandMode} {s : State} {f : Fault} (h : readOperand m s = .error f) :
    BodyFault s f := by
  cases m with
  | immediate b => cases h
  | address m =>
    rw [readOperand_address] at h
    obtain h | ⟨a, ha, h⟩ := bind_error_iff.mp h
    · exact resolveAddress_fault h
    · exact (memRead_fault h).trans (resolveAddress_keeps ha)

theorem jumpTo_keeps {m : AddrMode} {s t : State} (h : jumpTo m s = .ok t) : Keeps s t := by
  obtain ⟨a, ha, h⟩ := bind_ok_iff.mp h
  exact (resolveAddress_keeps ha).trans (goto_keeps h)

theorem jumpTo_fault {m : AddrMode} {s : State} {f : Fault} (h : jumpTo m s = .error f) : BodyFault s f := by
  obtain h | ⟨a, ha, h⟩ := bind_error_iff.mp h
  · exact resolveAddress_fault h
  · exact (goto_fault h).trans (resolveAddress_keeps ha)

theorem takeInterrupt_keeps {s t : State} (h : takeInterrupt s = .ok t) : Keeps s t := by
  obtain ⟨u, hu, h⟩ := bind_ok_iff.mp h
  obtain ⟨v, hv, h⟩ := bind_ok_iff.mp h
  obtain ⟨w, hw, h⟩ := bind_ok_iff.mp h
  have : Keeps v (v.withP { v.p with i := true }) := ⟨rfl, rfl, rfl, rfl, rfl, List.suffix_refl _, Nat.le_refl _, id⟩
  exact (push16_keeps hu).trans <| (push8_keeps hv).trans <| this.trans <| (memRead16_keeps hw).trans (goto_keeps h)

theorem takeInterrupt_fault {s : State} {f : Fault} (h : takeInterrupt s = .error f) : BodyFault s f := by
  obtain h | ⟨u, hu, h⟩ := bind_error_iff.mp h
  · exact push16_fault h
  · refine .trans (push16_keeps hu) ?_
    obtain h | ⟨v, hv, h⟩ := bind_error_iff.mp h
    · exact push8_fault h
    · refine .trans (push8_keeps hv) ?_
      have : Keeps v (v.withP { v.p with i := true }) := ⟨rfl, rfl, rfl, rfl, rfl, List.suffix_refl _, Nat.le_refl _, id⟩
      refine .trans this ?_
      obtain h | ⟨w, hw, h⟩ := bind_error_iff.mp h
      · exact memRead16_fault h
      · exact .trans (memRead16_keeps hw) (goto_fault h)

theorem returnFromInterrupt_keeps {s t : State} (h : returnFromInterrupt s = .ok t) : Keeps s t := by
  obtain ⟨u, hu, h⟩ := bind_ok_iff.mp h
  obtain ⟨v, hv, h⟩ := bind_ok_iff.mp h
  exact (popFlags_keeps hu).trans <| (pop16_keeps hv).trans (goto_keeps h)

theorem returnFromInterrupt_fault {s : State} {f : Fault} (h : returnFromInterrupt s = .error f) : BodyFault s f := by
  obtain h | ⟨u, hu, h⟩ := bind_error_iff.mp h
  · exact popFlags_fault h
  · refine .trans (popFlags_keeps hu) ?_
    obtain h | ⟨v, hv, h⟩ := bind_error_iff.mp h
    · exact pop16_fault h
    · exact .trans (pop16_keeps hv) (goto_fault h)

/-! ## Shapes -/

theorem readMeaning_keeps (mn : Mnemonic) (v : Byte) (s : State) : Keeps s (readMeaning mn v s) := by
  cases mn <;> exact ⟨rfl, rfl, rfl, rfl, rfl, List.suffix_refl _, Nat.le_refl _, id⟩

theorem registerMeaning_keeps (mn : Mnemonic) (s : State) : Keeps s (registerMeaning mn s) := by
  cases mn <;> exact ⟨rfl, rfl, rfl, rfl, rfl, List.suffix_refl _, Nat.le_refl _, id⟩

theorem advance_keeps (s : State) : Keeps s (advance s) :=
  ⟨rfl, rfl, rfl, rfl, rfl, List.suffix_refl _, Nat.le_refl _, id⟩

theorem withP_keeps (s : State) (p : Flags) : Keeps s (s.withP p) :=
  ⟨rfl, rfl, rfl, rfl, rfl, List.suffix_refl _, Nat.le_refl _, id⟩

/-- What a shape keeps when it answers a next state; HALT alone changes the status. -/
theorem Shape.run_keeps {sh : Shape} {s t : State} (h : sh.run s = .next t) (hh : sh ≠ .other .halt) : Keeps s t := by
  cases sh with
  | read mn m =>
    obtain ⟨r, hr, rfl⟩ := readThen_next_iff.mp h
    exact (readOperand_keeps hr).trans <| (readMeaning_keeps mn r.1 r.2).trans (advance_keeps _)
  | store mn m =>
    obtain ⟨a, ha, hlt, rfl⟩ := storeThen_next_iff.mp h
    exact (resolveAddress_keeps ha).trans <| (storeCell_keeps _ _ hlt).trans (advance_keeps _)
  | modify mn m =>
    obtain ⟨a, v, ha, hv, rfl⟩ := modifyThen_next_iff.mp h
    exact (resolveAddress_keeps ha).trans <| (memRead_keeps hv).trans <|
      (storeCell_keeps _ _ (memRead_ok_iff.mp hv).1).trans <| (withP_keeps _ _).trans (advance_keeps _)
  | shiftA mn => cases h; exact ⟨rfl, rfl, rfl, rfl, rfl, List.suffix_refl _, Nat.le_refl _, id⟩
  | register mn => cases h; exact (registerMeaning_keeps mn s).trans (advance_keeps _)
  | branch mn flag want b =>
    dsimp only [Shape.run] at h
    split at h
    · exact jumpTo_keeps (finish_next_iff.mp h)
    · cases h; exact advance_keeps s
  | jump m => exact jumpTo_keeps (finish_next_iff.mp h)
  | call w =>
    obtain ⟨a, ha, h⟩ := bind_ok_iff.mp (finish_next_iff.mp h)
    obtain ⟨u, hu, h⟩ := bind_ok_iff.mp h
    exact (resolveAddress_keeps ha).trans <| (push16_keeps hu).trans (goto_keeps h)
  | other mn =>
    cases mn
    case pha =>
      obtain ⟨u, hu, h⟩ := bind_ok_iff.mp (finish_next_iff.mp h)
      cases h; exact (push8_keeps hu).trans (advance_keeps _)
    case php =>
      obtain ⟨u, hu, h⟩ := bind_ok_iff.mp (finish_next_iff.mp h)
      cases h; exact (push8_keeps hu).trans (advance_keeps _)
    case pla =>
      obtain ⟨u, hu, h⟩ := bind_ok_iff.mp (finish_next_iff.mp h)
      cases h; exact (pop8_keeps hu).trans <| (readMeaning_keeps .lda u.1 u.2).trans (advance_keeps _)
    case plp =>
      obtain ⟨u, hu, h⟩ := bind_ok_iff.mp (finish_next_iff.mp h)
      cases h; exact (popFlags_keeps hu).trans (advance_keeps _)
    case rts =>
      obtain ⟨u, hu, h⟩ := bind_ok_iff.mp (finish_next_iff.mp h)
      exact (pop16_keeps hu).trans (goto_keeps h)
    case brk => exact takeInterrupt_keeps (finish_next_iff.mp h)
    case rti => exact returnFromInterrupt_keeps (finish_next_iff.mp h)
    case halt => exact absurd rfl hh
    all_goals cases h; exact .refl s

/-- What a shape may raise. -/
theorem Shape.run_fault {sh : Shape} {s : State} {f : Fault} (h : sh.run s = .fault f) : BodyFault s f := by
  cases sh with
  | read mn m => exact readOperand_fault (readThen_fault_iff.mp h)
  | store mn m =>
    obtain h | ⟨a, ha, hle, rfl⟩ := storeThen_fault_iff.mp h
    · exact resolveAddress_fault h
    · exact .outOfBounds a.1 a.2 (resolveAddress_keeps ha) hle
  | modify mn m =>
    obtain h | ⟨a, ha, h⟩ := modifyThen_fault_iff.mp h
    · exact resolveAddress_fault h
    · exact (memRead_fault h).trans (resolveAddress_keeps ha)
  | shiftA mn => cases h
  | register mn => cases h
  | branch mn flag want b =>
    dsimp only [Shape.run] at h
    split at h
    · exact jumpTo_fault (finish_fault_iff.mp h)
    · cases h
  | jump m => exact jumpTo_fault (finish_fault_iff.mp h)
  | call w =>
    obtain h | ⟨a, ha, h⟩ := bind_error_iff.mp (finish_fault_iff.mp h)
    · exact resolveAddress_fault h
    · obtain h | ⟨u, hu, h⟩ := bind_error_iff.mp h
      · exact (push16_fault h).trans (resolveAddress_keeps ha)
      · exact ((goto_fault h).trans (push16_keeps hu)).trans (resolveAddress_keeps ha)
  | other mn =>
    cases mn
    case pha =>
      obtain h | ⟨u, hu, h⟩ := bind_error_iff.mp (finish_fault_iff.mp h)
      · exact push8_fault h
      · cases h
    case php =>
      obtain h | ⟨u, hu, h⟩ := bind_error_iff.mp (finish_fault_iff.mp h)
      · exact push8_fault h
      · cases h
    case pla =>
      obtain h | ⟨u, hu, h⟩ := bind_error_iff.mp (finish_fault_iff.mp h)
      · exact pop8_fault h
      · cases h
    case plp =>
      obtain h | ⟨u, hu, h⟩ := bind_error_iff.mp (finish_fault_iff.mp h)
      · exact popFlags_fault h
      · cases h
    case rts =>
      obtain h | ⟨u, hu, h⟩ := bind_error_iff.mp (finish_fault_iff.mp h)
      · exact pop16_fault h
      · exact (goto_fault h).trans (pop16_keeps hu)
    case brk => exact takeInterrupt_fault (finish_fault_iff.mp h)
    case rti => exact returnFromInterrupt_fault (finish_fault_iff.mp h)
    all_goals cases h

end Sys2Proof.Machine
end

