-- ==== Sys2Proof/Laws/PerInstr.lean ====
section
/-! SUPPORT. Facts about every instruction as syntax, one lemma per constructor. -/

namespace Sys2Proof.Laws

/-- The instruction's mode is one R122 lists for its mnemonic, and it is encoded in one opcode byte and as many
operand bytes as R110 and R116 say. -/
def Form.Statement (i : Instr) : Prop :=
  WellFormed i = true ∧ (encode i).length = 1 + i.operandCount

theorem Form.ldaImm (b : Byte) : Form.Statement (.ldaImm b) := ⟨rfl, rfl⟩
theorem Form.ldaZp (b : Byte) : Form.Statement (.ldaZp b) := ⟨rfl, rfl⟩
theorem Form.ldaZpX (b : Byte) : Form.Statement (.ldaZpX b) := ⟨rfl, rfl⟩
theorem Form.ldaAbs (w : Word) : Form.Statement (.ldaAbs w) := ⟨rfl, rfl⟩
theorem Form.ldaAbsX (w : Word) : Form.Statement (.ldaAbsX w) := ⟨rfl, rfl⟩
theorem Form.ldaAbsY (w : Word) : Form.Statement (.ldaAbsY w) := ⟨rfl, rfl⟩
theorem Form.ldaIndX (b : Byte) : Form.Statement (.ldaIndX b) := ⟨rfl, rfl⟩
theorem Form.ldaIndY (b : Byte) : Form.Statement (.ldaIndY b) := ⟨rfl, rfl⟩
theorem Form.ldxImm (b : Byte) : Form.Statement (.ldxImm b) := ⟨rfl, rfl⟩
theorem Form.ldxZp (b : Byte) : Form.Statement (.ldxZp b) := ⟨rfl, rfl⟩
theorem Form.ldxZpY (b : Byte) : Form.Statement (.ldxZpY b) := ⟨rfl, rfl⟩
theorem Form.ldxAbs (w : Word) : Form.Statement (.ldxAbs w) := ⟨rfl, rfl⟩
theorem Form.ldxAbsY (w : Word) : Form.Statement (.ldxAbsY w) := ⟨rfl, rfl⟩
theorem Form.ldyImm (b : Byte) : Form.Statement (.ldyImm b) := ⟨rfl, rfl⟩
theorem Form.ldyZp (b : Byte) : Form.Statement (.ldyZp b) := ⟨rfl, rfl⟩
theorem Form.ldyZpX (b : Byte) : Form.Statement (.ldyZpX b) := ⟨rfl, rfl⟩
theorem Form.ldyAbs (w : Word) : Form.Statement (.ldyAbs w) := ⟨rfl, rfl⟩
theorem Form.ldyAbsX (w : Word) : Form.Statement (.ldyAbsX w) := ⟨rfl, rfl⟩
theorem Form.staZp (b : Byte) : Form.Statement (.staZp b) := ⟨rfl, rfl⟩
theorem Form.staZpX (b : Byte) : Form.Statement (.staZpX b) := ⟨rfl, rfl⟩
theorem Form.staAbs (w : Word) : Form.Statement (.staAbs w) := ⟨rfl, rfl⟩
theorem Form.staAbsX (w : Word) : Form.Statement (.staAbsX w) := ⟨rfl, rfl⟩
theorem Form.staAbsY (w : Word) : Form.Statement (.staAbsY w) := ⟨rfl, rfl⟩
theorem Form.staIndX (b : Byte) : Form.Statement (.staIndX b) := ⟨rfl, rfl⟩
theorem Form.staIndY (b : Byte) : Form.Statement (.staIndY b) := ⟨rfl, rfl⟩
theorem Form.stxZp (b : Byte) : Form.Statement (.stxZp b) := ⟨rfl, rfl⟩
theorem Form.stxZpY (b : Byte) : Form.Statement (.stxZpY b) := ⟨rfl, rfl⟩
theorem Form.stxAbs (w : Word) : Form.Statement (.stxAbs w) := ⟨rfl, rfl⟩
theorem Form.styZp (b : Byte) : Form.Statement (.styZp b) := ⟨rfl, rfl⟩
theorem Form.styZpX (b : Byte) : Form.Statement (.styZpX b) := ⟨rfl, rfl⟩
theorem Form.styAbs (w : Word) : Form.Statement (.styAbs w) := ⟨rfl, rfl⟩
theorem Form.tax : Form.Statement (.tax) := ⟨rfl, rfl⟩
theorem Form.tay : Form.Statement (.tay) := ⟨rfl, rfl⟩
theorem Form.txa : Form.Statement (.txa) := ⟨rfl, rfl⟩
theorem Form.tya : Form.Statement (.tya) := ⟨rfl, rfl⟩
theorem Form.tsx : Form.Statement (.tsx) := ⟨rfl, rfl⟩
theorem Form.txs : Form.Statement (.txs) := ⟨rfl, rfl⟩
theorem Form.adcImm (b : Byte) : Form.Statement (.adcImm b) := ⟨rfl, rfl⟩
theorem Form.adcZp (b : Byte) : Form.Statement (.adcZp b) := ⟨rfl, rfl⟩
theorem Form.adcZpX (b : Byte) : Form.Statement (.adcZpX b) := ⟨rfl, rfl⟩
theorem Form.adcAbs (w : Word) : Form.Statement (.adcAbs w) := ⟨rfl, rfl⟩
theorem Form.adcAbsX (w : Word) : Form.Statement (.adcAbsX w) := ⟨rfl, rfl⟩
theorem Form.adcAbsY (w : Word) : Form.Statement (.adcAbsY w) := ⟨rfl, rfl⟩
theorem Form.adcIndX (b : Byte) : Form.Statement (.adcIndX b) := ⟨rfl, rfl⟩
theorem Form.adcIndY (b : Byte) : Form.Statement (.adcIndY b) := ⟨rfl, rfl⟩
theorem Form.sbcImm (b : Byte) : Form.Statement (.sbcImm b) := ⟨rfl, rfl⟩
theorem Form.sbcZp (b : Byte) : Form.Statement (.sbcZp b) := ⟨rfl, rfl⟩
theorem Form.sbcZpX (b : Byte) : Form.Statement (.sbcZpX b) := ⟨rfl, rfl⟩
theorem Form.sbcAbs (w : Word) : Form.Statement (.sbcAbs w) := ⟨rfl, rfl⟩
theorem Form.sbcAbsX (w : Word) : Form.Statement (.sbcAbsX w) := ⟨rfl, rfl⟩
theorem Form.sbcAbsY (w : Word) : Form.Statement (.sbcAbsY w) := ⟨rfl, rfl⟩
theorem Form.sbcIndX (b : Byte) : Form.Statement (.sbcIndX b) := ⟨rfl, rfl⟩
theorem Form.sbcIndY (b : Byte) : Form.Statement (.sbcIndY b) := ⟨rfl, rfl⟩
theorem Form.andImm (b : Byte) : Form.Statement (.andImm b) := ⟨rfl, rfl⟩
theorem Form.andZp (b : Byte) : Form.Statement (.andZp b) := ⟨rfl, rfl⟩
theorem Form.andZpX (b : Byte) : Form.Statement (.andZpX b) := ⟨rfl, rfl⟩
theorem Form.andAbs (w : Word) : Form.Statement (.andAbs w) := ⟨rfl, rfl⟩
theorem Form.andAbsX (w : Word) : Form.Statement (.andAbsX w) := ⟨rfl, rfl⟩
theorem Form.andAbsY (w : Word) : Form.Statement (.andAbsY w) := ⟨rfl, rfl⟩
theorem Form.andIndX (b : Byte) : Form.Statement (.andIndX b) := ⟨rfl, rfl⟩
theorem Form.andIndY (b : Byte) : Form.Statement (.andIndY b) := ⟨rfl, rfl⟩
theorem Form.oraImm (b : Byte) : Form.Statement (.oraImm b) := ⟨rfl, rfl⟩
theorem Form.oraZp (b : Byte) : Form.Statement (.oraZp b) := ⟨rfl, rfl⟩
theorem Form.oraZpX (b : Byte) : Form.Statement (.oraZpX b) := ⟨rfl, rfl⟩
theorem Form.oraAbs (w : Word) : Form.Statement (.oraAbs w) := ⟨rfl, rfl⟩
theorem Form.oraAbsX (w : Word) : Form.Statement (.oraAbsX w) := ⟨rfl, rfl⟩
theorem Form.oraAbsY (w : Word) : Form.Statement (.oraAbsY w) := ⟨rfl, rfl⟩
theorem Form.oraIndX (b : Byte) : Form.Statement (.oraIndX b) := ⟨rfl, rfl⟩
theorem Form.oraIndY (b : Byte) : Form.Statement (.oraIndY b) := ⟨rfl, rfl⟩
theorem Form.eorImm (b : Byte) : Form.Statement (.eorImm b) := ⟨rfl, rfl⟩
theorem Form.eorZp (b : Byte) : Form.Statement (.eorZp b) := ⟨rfl, rfl⟩
theorem Form.eorZpX (b : Byte) : Form.Statement (.eorZpX b) := ⟨rfl, rfl⟩
theorem Form.eorAbs (w : Word) : Form.Statement (.eorAbs w) := ⟨rfl, rfl⟩
theorem Form.eorAbsX (w : Word) : Form.Statement (.eorAbsX w) := ⟨rfl, rfl⟩
theorem Form.eorAbsY (w : Word) : Form.Statement (.eorAbsY w) := ⟨rfl, rfl⟩
theorem Form.eorIndX (b : Byte) : Form.Statement (.eorIndX b) := ⟨rfl, rfl⟩
theorem Form.eorIndY (b : Byte) : Form.Statement (.eorIndY b) := ⟨rfl, rfl⟩
theorem Form.bitZp (b : Byte) : Form.Statement (.bitZp b) := ⟨rfl, rfl⟩
theorem Form.bitAbs (w : Word) : Form.Statement (.bitAbs w) := ⟨rfl, rfl⟩
theorem Form.cmpImm (b : Byte) : Form.Statement (.cmpImm b) := ⟨rfl, rfl⟩
theorem Form.cmpZp (b : Byte) : Form.Statement (.cmpZp b) := ⟨rfl, rfl⟩
theorem Form.cmpZpX (b : Byte) : Form.Statement (.cmpZpX b) := ⟨rfl, rfl⟩
theorem Form.cmpAbs (w : Word) : Form.Statement (.cmpAbs w) := ⟨rfl, rfl⟩
theorem Form.cmpAbsX (w : Word) : Form.Statement (.cmpAbsX w) := ⟨rfl, rfl⟩
theorem Form.cmpAbsY (w : Word) : Form.Statement (.cmpAbsY w) := ⟨rfl, rfl⟩
theorem Form.cmpIndX (b : Byte) : Form.Statement (.cmpIndX b) := ⟨rfl, rfl⟩
theorem Form.cmpIndY (b : Byte) : Form.Statement (.cmpIndY b) := ⟨rfl, rfl⟩
theorem Form.cpxImm (b : Byte) : Form.Statement (.cpxImm b) := ⟨rfl, rfl⟩
theorem Form.cpxZp (b : Byte) : Form.Statement (.cpxZp b) := ⟨rfl, rfl⟩
theorem Form.cpxAbs (w : Word) : Form.Statement (.cpxAbs w) := ⟨rfl, rfl⟩
theorem Form.cpyImm (b : Byte) : Form.Statement (.cpyImm b) := ⟨rfl, rfl⟩
theorem Form.cpyZp (b : Byte) : Form.Statement (.cpyZp b) := ⟨rfl, rfl⟩
theorem Form.cpyAbs (w : Word) : Form.Statement (.cpyAbs w) := ⟨rfl, rfl⟩
theorem Form.incZp (b : Byte) : Form.Statement (.incZp b) := ⟨rfl, rfl⟩
theorem Form.incZpX (b : Byte) : Form.Statement (.incZpX b) := ⟨rfl, rfl⟩
theorem Form.incAbs (w : Word) : Form.Statement (.incAbs w) := ⟨rfl, rfl⟩
theorem Form.incAbsX (w : Word) : Form.Statement (.incAbsX w) := ⟨rfl, rfl⟩
theorem Form.decZp (b : Byte) : Form.Statement (.decZp b) := ⟨rfl, rfl⟩
theorem Form.decZpX (b : Byte) : Form.Statement (.decZpX b) := ⟨rfl, rfl⟩
theorem Form.decAbs (w : Word) : Form.Statement (.decAbs w) := ⟨rfl, rfl⟩
theorem Form.decAbsX (w : Word) : Form.Statement (.decAbsX w) := ⟨rfl, rfl⟩
theorem Form.inx : Form.Statement (.inx) := ⟨rfl, rfl⟩
theorem Form.iny : Form.Statement (.iny) := ⟨rfl, rfl⟩
theorem Form.dex : Form.Statement (.dex) := ⟨rfl, rfl⟩
theorem Form.dey : Form.Statement (.dey) := ⟨rfl, rfl⟩
theorem Form.aslAcc : Form.Statement (.aslAcc) := ⟨rfl, rfl⟩
theorem Form.aslZp (b : Byte) : Form.Statement (.aslZp b) := ⟨rfl, rfl⟩
theorem Form.aslZpX (b : Byte) : Form.Statement (.aslZpX b) := ⟨rfl, rfl⟩
theorem Form.aslAbs (w : Word) : Form.Statement (.aslAbs w) := ⟨rfl, rfl⟩
theorem Form.aslAbsX (w : Word) : Form.Statement (.aslAbsX w) := ⟨rfl, rfl⟩
theorem Form.lsrAcc : Form.Statement (.lsrAcc) := ⟨rfl, rfl⟩
theorem Form.lsrZp (b : Byte) : Form.Statement (.lsrZp b) := ⟨rfl, rfl⟩
theorem Form.lsrZpX (b : Byte) : Form.Statement (.lsrZpX b) := ⟨rfl, rfl⟩
theorem Form.lsrAbs (w : Word) : Form.Statement (.lsrAbs w) := ⟨rfl, rfl⟩
theorem Form.lsrAbsX (w : Word) : Form.Statement (.lsrAbsX w) := ⟨rfl, rfl⟩
theorem Form.rolAcc : Form.Statement (.rolAcc) := ⟨rfl, rfl⟩
theorem Form.rolZp (b : Byte) : Form.Statement (.rolZp b) := ⟨rfl, rfl⟩
theorem Form.rolZpX (b : Byte) : Form.Statement (.rolZpX b) := ⟨rfl, rfl⟩
theorem Form.rolAbs (w : Word) : Form.Statement (.rolAbs w) := ⟨rfl, rfl⟩
theorem Form.rolAbsX (w : Word) : Form.Statement (.rolAbsX w) := ⟨rfl, rfl⟩
theorem Form.rorAcc : Form.Statement (.rorAcc) := ⟨rfl, rfl⟩
theorem Form.rorZp (b : Byte) : Form.Statement (.rorZp b) := ⟨rfl, rfl⟩
theorem Form.rorZpX (b : Byte) : Form.Statement (.rorZpX b) := ⟨rfl, rfl⟩
theorem Form.rorAbs (w : Word) : Form.Statement (.rorAbs w) := ⟨rfl, rfl⟩
theorem Form.rorAbsX (w : Word) : Form.Statement (.rorAbsX w) := ⟨rfl, rfl⟩
theorem Form.bpl (b : Byte) : Form.Statement (.bpl b) := ⟨rfl, rfl⟩
theorem Form.bmi (b : Byte) : Form.Statement (.bmi b) := ⟨rfl, rfl⟩
theorem Form.bvc (b : Byte) : Form.Statement (.bvc b) := ⟨rfl, rfl⟩
theorem Form.bvs (b : Byte) : Form.Statement (.bvs b) := ⟨rfl, rfl⟩
theorem Form.bcc (b : Byte) : Form.Statement (.bcc b) := ⟨rfl, rfl⟩
theorem Form.bcs (b : Byte) : Form.Statement (.bcs b) := ⟨rfl, rfl⟩
theorem Form.bne (b : Byte) : Form.Statement (.bne b) := ⟨rfl, rfl⟩
theorem Form.beq (b : Byte) : Form.Statement (.beq b) := ⟨rfl, rfl⟩
theorem Form.jmpAbs (w : Word) : Form.Statement (.jmpAbs w) := ⟨rfl, rfl⟩
theorem Form.jmpInd (w : Word) : Form.Statement (.jmpInd w) := ⟨rfl, rfl⟩
theorem Form.jsr (w : Word) : Form.Statement (.jsr w) := ⟨rfl, rfl⟩
theorem Form.rts : Form.Statement (.rts) := ⟨rfl, rfl⟩
theorem Form.pha : Form.Statement (.pha) := ⟨rfl, rfl⟩
theorem Form.pla : Form.Statement (.pla) := ⟨rfl, rfl⟩
theorem Form.php : Form.Statement (.php) := ⟨rfl, rfl⟩
theorem Form.plp : Form.Statement (.plp) := ⟨rfl, rfl⟩
theorem Form.clc : Form.Statement (.clc) := ⟨rfl, rfl⟩
theorem Form.sec : Form.Statement (.sec) := ⟨rfl, rfl⟩
theorem Form.cli : Form.Statement (.cli) := ⟨rfl, rfl⟩
theorem Form.sei : Form.Statement (.sei) := ⟨rfl, rfl⟩
theorem Form.clv : Form.Statement (.clv) := ⟨rfl, rfl⟩
theorem Form.cld : Form.Statement (.cld) := ⟨rfl, rfl⟩
theorem Form.sed : Form.Statement (.sed) := ⟨rfl, rfl⟩
theorem Form.nop : Form.Statement (.nop) := ⟨rfl, rfl⟩
theorem Form.brk : Form.Statement (.brk) := ⟨rfl, rfl⟩
theorem Form.rti : Form.Statement (.rti) := ⟨rfl, rfl⟩
theorem Form.halt : Form.Statement (.halt) := ⟨rfl, rfl⟩

end Sys2Proof.Laws
end

