-- ==== Sys2Proof/Laws/Step.lean ====
section
/-! SUPPORT. The opcode table's rows, what `fetch` can do, what a host window leaves alone, and what a step can do. -/

namespace Sys2Proof.Machine

open Sys2Proof

/-! ## The table -/

/-- A row's instructions have its opcode as their first byte, and as many operand bytes as the row says. -/
def RowOk (r : Row) : Prop :=
  match r.entry with
  | .noOperand i => encode i = [r.opcode] ∧ i.operandCount = 0
  | .byteOperand f => ∀ b, (f b).operandCount = 1 ∧
      (encode (f b) = [r.opcode, b] ∨ (f b = .brk ∧ r.opcode = 0x00))
  | .wordOperand f => ∀ w, encode (f w) = [r.opcode, loByte w, hiByte w] ∧ (f w).operandCount = 2

theorem lookupIn_some {rs : List Row} {op : Byte} {e : Entry} (h : lookupIn rs op = some e) :
    ∃ r ∈ rs, r.opcode = op ∧ r.entry = e := by
  induction rs with
  | nil => cases h
  | cons r rs ih =>
    unfold lookupIn at h
    split at h
    · rename_i hr
      exact ⟨r, List.mem_cons_self, eq_of_beq hr, Option.some.inj h⟩
    · obtain ⟨q, hq, h⟩ := ih h
      exact ⟨q, List.mem_cons_of_mem _ hq, h⟩

theorem rowsOk_append {rs qs : List Row} (h : ∀ r ∈ rs, RowOk r) (h' : ∀ r ∈ qs, RowOk r) : ∀ r ∈ rs ++ qs, RowOk r :=
  fun r hr => (List.mem_append.mp hr).elim (h r) (h' r)

theorem rowOk_none {op : Byte} {i : Instr} (h : encode i = [op]) (h0 : i.operandCount = 0) :
    RowOk { opcode := op, entry := .noOperand i } :=
  And.intro h h0

theorem rowOk_byte {op : Byte} {f : Byte → Instr} (h : ∀ b, encode (f b) = [op, b])
    (h1 : ∀ b, (f b).operandCount = 1) : RowOk { opcode := op, entry := .byteOperand f } :=
  fun b => And.intro (h1 b) (.inl (h b))

theorem rowOk_word {op : Byte} {f : Word → Instr} (h : ∀ w, encode (f w) = [op, loByte w, hiByte w])
    (h2 : ∀ w, (f w).operandCount = 2) : RowOk { opcode := op, entry := .wordOperand f } :=
  fun w => And.intro (h w) (h2 w)

theorem rowOk_brk : RowOk { opcode := 0x00, entry := .byteOperand fun _ => .brk } :=
  fun _ => And.intro rfl (.inr (And.intro rfl rfl))

theorem rowsOk_cons {r : Row} {rs : List Row} (h : RowOk r) (h' : ∀ q ∈ rs, RowOk q) : ∀ q ∈ r :: rs, RowOk q :=
  List.forall_mem_cons.mpr (And.intro h h')

theorem rows0_ok : ∀ r ∈ rows0, RowOk r :=
  rowsOk_cons rowOk_brk <|
  rowsOk_cons (rowOk_byte (fun _ => rfl) fun _ => rfl) <|
  rowsOk_cons (rowOk_byte (fun _ => rfl) fun _ => rfl) <|
  rowsOk_cons (rowOk_byte (fun _ => rfl) fun _ => rfl) <|
  rowsOk_cons (rowOk_none rfl rfl) <|
  rowsOk_cons (rowOk_byte (fun _ => rfl) fun _ => rfl) <|
  rowsOk_cons (rowOk_none rfl rfl) <|
  rowsOk_cons (rowOk_word (fun _ => rfl) fun _ => rfl) <|
  rowsOk_cons (rowOk_word (fun _ => rfl) fun _ => rfl) <|
  fun _ h => absurd h List.not_mem_nil

theorem rows1_ok : ∀ r ∈ rows1, RowOk r :=
  rowsOk_cons (rowOk_byte (fun _ => rfl) fun _ => rfl) <|
  rowsOk_cons (rowOk_byte (fun _ => rfl) fun _ => rfl) <|
  rowsOk_cons (rowOk_byte (fun _ => rfl) fun _ => rfl) <|
  rowsOk_cons (rowOk_byte (fun _ => rfl) fun _ => rfl) <|
  rowsOk_cons (rowOk_none rfl rfl) <|
  rowsOk_cons (rowOk_word (fun _ => rfl) fun _ => rfl) <|
  rowsOk_cons (rowOk_word (fun _ => rfl) fun _ => rfl) <|
  rowsOk_cons (rowOk_word (fun _ => rfl) fun _ => rfl) <|
  fun _ h => absurd h List.not_mem_nil

theorem rows2_ok : ∀ r ∈ rows2, RowOk r :=
  rowsOk_cons (rowOk_word (fun _ => rfl) fun _ => rfl) <|
  rowsOk_cons (rowOk_byte (fun _ => rfl) fun _ => rfl) <|
  rowsOk_cons (rowOk_byte (fun _ => rfl) fun _ => rfl) <|
  rowsOk_cons (rowOk_byte (fun _ => rfl) fun _ => rfl) <|
  rowsOk_cons (rowOk_byte (fun _ => rfl) fun _ => rfl) <|
  rowsOk_cons (rowOk_none rfl rfl) <|
  rowsOk_cons (rowOk_byte (fun _ => rfl) fun _ => rfl) <|
  rowsOk_cons (rowOk_none rfl rfl) <|
  rowsOk_cons (rowOk_word (fun _ => rfl) fun _ => rfl) <|
  rowsOk_cons (rowOk_word (fun _ => rfl) fun _ => rfl) <|
  rowsOk_cons (rowOk_word (fun _ => rfl) fun _ => rfl) <|
  fun _ h => absurd h List.not_mem_nil

theorem rows3_ok : ∀ r ∈ rows3, RowOk r :=
  rowsOk_cons (rowOk_byte (fun _ => rfl) fun _ => rfl) <|
  rowsOk_cons (rowOk_byte (fun _ => rfl) fun _ => rfl) <|
  rowsOk_cons (rowOk_byte (fun _ => rfl) fun _ => rfl) <|
  rowsOk_cons (rowOk_byte (fun _ => rfl) fun _ => rfl) <|
  rowsOk_cons (rowOk_none rfl rfl) <|
  rowsOk_cons (rowOk_word (fun _ => rfl) fun _ => rfl) <|
  rowsOk_cons (rowOk_word (fun _ => rfl) fun _ => rfl) <|
  rowsOk_cons (rowOk_word (fun _ => rfl) fun _ => rfl) <|
  fun _ h => absurd h List.not_mem_nil

theorem rows4_ok : ∀ r ∈ rows4, RowOk r :=
  rowsOk_cons (rowOk_none rfl rfl) <|
  rowsOk_cons (rowOk_byte (fun _ => rfl) fun _ => rfl) <|
  rowsOk_cons (rowOk_byte (fun _ => rfl) fun _ => rfl) <|
  rowsOk_cons (rowOk_byte (fun _ => rfl) fun _ => rfl) <|
  rowsOk_cons (rowOk_none rfl rfl) <|
  rowsOk_cons (rowOk_byte (fun _ => rfl) fun _ => rfl) <|
  rowsOk_cons (rowOk_none rfl rfl) <|
  rowsOk_cons (rowOk_word (fun _ => rfl) fun _ => rfl) <|
  rowsOk_cons (rowOk_word (fun _ => rfl) fun _ => rfl) <|
  rowsOk_cons (rowOk_word (fun _ => rfl) fun _ => rfl) <|
  fun _ h => absurd h List.not_mem_nil

theorem rows5_ok : ∀ r ∈ rows5, RowOk r :=
  rowsOk_cons (rowOk_byte (fun _ => rfl) fun _ => rfl) <|
  rowsOk_cons (rowOk_byte (fun _ => rfl) fun _ => rfl) <|
  rowsOk_cons (rowOk_byte (fun _ => rfl) fun _ => rfl) <|
  rowsOk_cons (rowOk_byte (fun _ => rfl) fun _ => rfl) <|
  rowsOk_cons (rowOk_none rfl rfl) <|
  rowsOk_cons (rowOk_word (fun _ => rfl) fun _ => rfl) <|
  rowsOk_cons (rowOk_word (fun _ => rfl) fun _ => rfl) <|
  rowsOk_cons (rowOk_word (fun _ => rfl) fun _ => rfl) <|
  fun _ h => absurd h List.not_mem_nil

theorem rows6_ok : ∀ r ∈ rows6, RowOk r :=
  rowsOk_cons (rowOk_none rfl rfl) <|
  rowsOk_cons (rowOk_byte (fun _ => rfl) fun _ => rfl) <|
  rowsOk_cons (rowOk_byte (fun _ => rfl) fun _ => rfl) <|
  rowsOk_cons (rowOk_byte (fun _ => rfl) fun _ => rfl) <|
  rowsOk_cons (rowOk_none rfl rfl) <|
  rowsOk_cons (rowOk_byte (fun _ => rfl) fun _ => rfl) <|
  rowsOk_cons (rowOk_none rfl rfl) <|
  rowsOk_cons (rowOk_word (fun _ => rfl) fun _ => rfl) <|
  rowsOk_cons (rowOk_word (fun _ => rfl) fun _ => rfl) <|
  rowsOk_cons (rowOk_word (fun _ => rfl) fun _ => rfl) <|
  fun _ h => absurd h List.not_mem_nil

theorem rows7_ok : ∀ r ∈ rows7, RowOk r :=
  rowsOk_cons (rowOk_byte (fun _ => rfl) fun _ => rfl) <|
  rowsOk_cons (rowOk_byte (fun _ => rfl) fun _ => rfl) <|
  rowsOk_cons (rowOk_byte (fun _ => rfl) fun _ => rfl) <|
  rowsOk_cons (rowOk_byte (fun _ => rfl) fun _ => rfl) <|
  rowsOk_cons (rowOk_none rfl rfl) <|
  rowsOk_cons (rowOk_word (fun _ => rfl) fun _ => rfl) <|
  rowsOk_cons (rowOk_word (fun _ => rfl) fun _ => rfl) <|
  rowsOk_cons (rowOk_word (fun _ => rfl) fun _ => rfl) <|
  fun _ h => absurd h List.not_mem_nil

theorem rows8_ok : ∀ r ∈ rows8, RowOk r :=
  rowsOk_cons (rowOk_byte (fun _ => rfl) fun _ => rfl) <|
  rowsOk_cons (rowOk_byte (fun _ => rfl) fun _ => rfl) <|
  rowsOk_cons (rowOk_byte (fun _ => rfl) fun _ => rfl) <|
  rowsOk_cons (rowOk_byte (fun _ => rfl) fun _ => rfl) <|
  rowsOk_cons (rowOk_none rfl rfl) <|
  rowsOk_cons (rowOk_none rfl rfl) <|
  rowsOk_cons (rowOk_word (fun _ => rfl) fun _ => rfl) <|
  rowsOk_cons (rowOk_word (fun _ => rfl) fun _ => rfl) <|
  rowsOk_cons (rowOk_word (fun _ => rfl) fun _ => rfl) <|
  fun _ h => absurd h List.not_mem_nil

theorem rows9_ok : ∀ r ∈ rows9, RowOk r :=
  rowsOk_cons (rowOk_byte (fun _ => rfl) fun _ => rfl) <|
  rowsOk_cons (rowOk_byte (fun _ => rfl) fun _ => rfl) <|
  rowsOk_cons (rowOk_byte (fun _ => rfl) fun _ => rfl) <|
  rowsOk_cons (rowOk_byte (fun _ => rfl) fun _ => rfl) <|
  rowsOk_cons (rowOk_byte (fun _ => rfl) fun _ => rfl) <|
  rowsOk_cons (rowOk_none rfl rfl) <|
  rowsOk_cons (rowOk_word (fun _ => rfl) fun _ => rfl) <|
  rowsOk_cons (rowOk_none rfl rfl) <|
  rowsOk_cons (rowOk_word (fun _ => rfl) fun _ => rfl) <|
  fun _ h => absurd h List.not_mem_nil

theorem rowsA_ok : ∀ r ∈ rowsA, RowOk r :=
  rowsOk_cons (rowOk_byte (fun _ => rfl) fun _ => rfl) <|
  rowsOk_cons (rowOk_byte (fun _ => rfl) fun _ => rfl) <|
  rowsOk_cons (rowOk_byte (fun _ => rfl) fun _ => rfl) <|
  rowsOk_cons (rowOk_byte (fun _ => rfl) fun _ => rfl) <|
  rowsOk_cons (rowOk_byte (fun _ => rfl) fun _ => rfl) <|
  rowsOk_cons (rowOk_byte (fun _ => rfl) fun _ => rfl) <|
  rowsOk_cons (rowOk_none rfl rfl) <|
  rowsOk_cons (rowOk_byte (fun _ => rfl) fun _ => rfl) <|
  rowsOk_cons (rowOk_none rfl rfl) <|
  rowsOk_cons (rowOk_word (fun _ => rfl) fun _ => rfl) <|
  rowsOk_cons (rowOk_word (fun _ => rfl) fun _ => rfl) <|
  rowsOk_cons (rowOk_word (fun _ => rfl) fun _ => rfl) <|
  fun _ h => absurd h List.not_mem_nil

theorem rowsB_ok : ∀ r ∈ rowsB, RowOk r :=
  rowsOk_cons (rowOk_byte (fun _ => rfl) fun _ => rfl) <|
  rowsOk_cons (rowOk_byte (fun _ => rfl) fun _ => rfl) <|
  rowsOk_cons (rowOk_byte (fun _ => rfl) fun _ => rfl) <|
  rowsOk_cons (rowOk_byte (fun _ => rfl) fun _ => rfl) <|
  rowsOk_cons (rowOk_byte (fun _ => rfl) fun _ => rfl) <|
  rowsOk_cons (rowOk_none rfl rfl) <|
  rowsOk_cons (rowOk_word (fun _ => rfl) fun _ => rfl) <|
  rowsOk_cons (rowOk_none rfl rfl) <|
  rowsOk_cons (rowOk_word (fun _ => rfl) fun _ => rfl) <|
  rowsOk_cons (rowOk_word (fun _ => rfl) fun _ => rfl) <|
  rowsOk_cons (rowOk_word (fun _ => rfl) fun _ => rfl) <|
  fun _ h => absurd h List.not_mem_nil

theorem rowsC_ok : ∀ r ∈ rowsC, RowOk r :=
  rowsOk_cons (rowOk_byte (fun _ => rfl) fun _ => rfl) <|
  rowsOk_cons (rowOk_byte (fun _ => rfl) fun _ => rfl) <|
  rowsOk_cons (rowOk_byte (fun _ => rfl) fun _ => rfl) <|
  rowsOk_cons (rowOk_byte (fun _ => rfl) fun _ => rfl) <|
  rowsOk_cons (rowOk_byte (fun _ => rfl) fun _ => rfl) <|
  rowsOk_cons (rowOk_none rfl rfl) <|
  rowsOk_cons (rowOk_byte (fun _ => rfl) fun _ => rfl) <|
  rowsOk_cons (rowOk_none rfl rfl) <|
  rowsOk_cons (rowOk_word (fun _ => rfl) fun _ => rfl) <|
  rowsOk_cons (rowOk_word (fun _ => rfl) fun _ => rfl) <|
  rowsOk_cons (rowOk_word (fun _ => rfl) fun _ => rfl) <|
  fun _ h => absurd h List.not_mem_nil

theorem rowsD_ok : ∀ r ∈ rowsD, RowOk r :=
  rowsOk_cons (rowOk_byte (fun _ => rfl) fun _ => rfl) <|
  rowsOk_cons (rowOk_byte (fun _ => rfl) fun _ => rfl) <|
  rowsOk_cons (rowOk_byte (fun _ => rfl) fun _ => rfl) <|
  rowsOk_cons (rowOk_byte (fun _ => rfl) fun _ => rfl) <|
  rowsOk_cons (rowOk_none rfl rfl) <|
  rowsOk_cons (rowOk_word (fun _ => rfl) fun _ => rfl) <|
  rowsOk_cons (rowOk_word (fun _ => rfl) fun _ => rfl) <|
  rowsOk_cons (rowOk_word (fun _ => rfl) fun _ => rfl) <|
  fun _ h => absurd h List.not_mem_nil

theorem rowsE_ok : ∀ r ∈ rowsE, RowOk r :=
  rowsOk_cons (rowOk_byte (fun _ => rfl) fun _ => rfl) <|
  rowsOk_cons (rowOk_byte (fun _ => rfl) fun _ => rfl) <|
  rowsOk_cons (rowOk_byte (fun _ => rfl) fun _ => rfl) <|
  rowsOk_cons (rowOk_byte (fun _ => rfl) fun _ => rfl) <|
  rowsOk_cons (rowOk_byte (fun _ => rfl) fun _ => rfl) <|
  rowsOk_cons (rowOk_none rfl rfl) <|
  rowsOk_cons (rowOk_byte (fun _ => rfl) fun _ => rfl) <|
  rowsOk_cons (rowOk_none rfl rfl) <|
  rowsOk_cons (rowOk_word (fun _ => rfl) fun _ => rfl) <|
  rowsOk_cons (rowOk_word (fun _ => rfl) fun _ => rfl) <|
  rowsOk_cons (rowOk_word (fun _ => rfl) fun _ => rfl) <|
  fun _ h => absurd h List.not_mem_nil

theorem rowsF_ok : ∀ r ∈ rowsF, RowOk r :=
  rowsOk_cons (rowOk_byte (fun _ => rfl) fun _ => rfl) <|
  rowsOk_cons (rowOk_byte (fun _ => rfl) fun _ => rfl) <|
  rowsOk_cons (rowOk_byte (fun _ => rfl) fun _ => rfl) <|
  rowsOk_cons (rowOk_byte (fun _ => rfl) fun _ => rfl) <|
  rowsOk_cons (rowOk_none rfl rfl) <|
  rowsOk_cons (rowOk_word (fun _ => rfl) fun _ => rfl) <|
  rowsOk_cons (rowOk_word (fun _ => rfl) fun _ => rfl) <|
  rowsOk_cons (rowOk_word (fun _ => rfl) fun _ => rfl) <|
  rowsOk_cons (rowOk_none rfl rfl) <|
  fun _ h => absurd h List.not_mem_nil

theorem table_ok : ∀ r ∈ table, RowOk r := by
  unfold table
  repeat' apply rowsOk_append
  exacts [rows0_ok, rows1_ok, rows2_ok, rows3_ok, rows4_ok, rows5_ok, rows6_ok, rows7_ok, rows8_ok, rows9_ok,
    rowsA_ok, rowsB_ok, rowsC_ok, rowsD_ok, rowsE_ok, rowsF_ok]

/-- What the table says of an opcode is true of the instructions it makes. -/
theorem lookup_ok {op : Byte} {e : Entry} (h : lookup op = some e) : RowOk { opcode := op, entry := e } := by
  obtain ⟨r, hr, rfl, rfl⟩ := lookupIn_some h
  exact table_ok r hr

/-! ## Fetching -/

/-- `t` differs from `s` in the program counter and the draws alone: all a fetch can change. -/
def SameButFetch (s t : State) : Prop :=
  t = ((s.withDraws t.draws).withDrawCount t.drawCount).withPc t.pc

theorem SameButFetch.trans {s t u : State} (h : SameButFetch s t) (h' : SameButFetch t u) : SameButFetch s u := by
  unfold SameButFetch at *
  rw [h', h]
  rfl

/-- The fields of a state that a fetch leaves alone. -/
theorem SameButFetch.fields {s t : State} (h : SameButFetch s t) :
    t.a = s.a ∧ t.x = s.x ∧ t.y = s.y ∧ t.sp = s.sp ∧ t.ispc = s.ispc ∧ t.p = s.p ∧ t.mem = s.mem ∧
      t.dirty = s.dirty ∧ t.running = s.running ∧ t.status = s.status ∧ t.snapshot = s.snapshot ∧ t.host = s.host ∧
      t.hostRest = s.hostRest := by
  unfold SameButFetch at h
  rw [h]
  exact ⟨rfl, rfl, rfl, rfl, rfl, rfl, rfl, rfl, rfl, rfl, rfl, rfl, rfl⟩

theorem fetchByte_ok_iff {s : State} {r : Byte × State} :
    fetchByte s = .ok r ↔ ∃ q, memRead s.pc s = .ok q ∧ r = (q.1, q.2.withPc (s.pc + 1)) := by
  unfold fetchByte
  simp only [bind_ok_iff, Except.ok.injEq]
  exact exists_congr fun q => and_congr_right fun _ => eq_comm

theorem fetchByte_frame {s : State} {r : Byte × State} (h : fetchByte s = .ok r) :
    SameButFetch s r.2 ∧ r.2.pc = s.pc + 1 ∧ s.pc < memSize := by
  obtain ⟨q, hq, rfl⟩ := fetchByte_ok_iff.mp h
  refine ⟨?_, rfl, (memRead_ok_iff.mp hq).1⟩
  have := memRead_same hq
  unfold SameButDraws at this
  unfold SameButFetch
  rw [this]
  rfl

/-- A byte below the end of memory is always there to be fetched. -/
theorem fetchByte_not_error {s : State} {f : Fault} (hpc : s.pc < memSize) : fetchByte s ≠ .error f := by
  intro h
  unfold fetchByte at h
  obtain h | ⟨_, _, h⟩ := bind_error_iff.mp h
  · exact absurd hpc (Nat.not_lt.mpr (memRead_error_iff.mp h).1)
  · cases h

theorem fetchOperand_ok_iff {op : Byte} {s : State} {r : Byte × State} :
    fetchOperand op s = .ok r ↔ fetchByte s = .ok r := by
  unfold fetchOperand raiseTruncatedOperand
  by_cases h : memSize ≤ s.pc
  · simp only [if_pos h, reduceCtorEq, false_iff]
    exact fun hf => absurd (fetchByte_frame hf).2.2 (Nat.not_lt.mpr h)
  · rw [if_neg h]

theorem fetchOperand_error_iff {op : Byte} {s : State} {f : Fault} :
    fetchOperand op s = .error f ↔
      memSize ≤ s.pc ∧ f = .truncatedOperand op (s.faulted .truncatedOperand) := by
  unfold fetchOperand raiseTruncatedOperand
  by_cases h : memSize ≤ s.pc
  · simp [h, eq_comm]
  · rw [if_neg h]
    exact ⟨fun hf => absurd hf (fetchByte_not_error (Nat.not_le.mp h)), fun hf => absurd hf.1 h⟩

/-- What `fetch` answers when it goes on: the end of the stream, or an instruction with `pc` just past it. -/
theorem fetch_ok {s : State} {r : Option Instr × State} (h : fetch s = .ok r) :
    (memSize ≤ s.pc ∧ r = (none, s)) ∨
      ∃ i t, r = (some i, t) ∧ SameButFetch s t ∧ t.pc = s.pc + 1 + i.operandCount ∧ t.pc ≤ memSize := by
  unfold fetch at h
  split at h
  · rename_i hpc
    cases h
    exact .inl ⟨hpc, rfl⟩
  · right
    obtain ⟨op, hop, h⟩ := bind_ok_iff.mp h
    obtain ⟨hs, hpc, hlt⟩ := fetchByte_frame hop
    cases hl : lookup op.1 with
    | none => simp [hl, raiseUnknownOpcode] at h
    | some e =>
      have hrow := lookup_ok hl
      rw [hl] at h
      cases e with
      | noOperand i =>
        cases h
        exact ⟨i, op.2, rfl, hs, by rw [hrow.2, hpc], by omega⟩
      | byteOperand f =>
        obtain ⟨b, hb, h⟩ := bind_ok_iff.mp h
        cases h
        obtain ⟨hs', hpc', hlt'⟩ := fetchByte_frame (fetchOperand_ok_iff.mp hb)
        refine ⟨f b.1, b.2, rfl, hs.trans hs', ?_, by omega⟩
        have := (hrow b.1).1
        omega
      | wordOperand f =>
        obtain ⟨lo, hlo, h⟩ := bind_ok_iff.mp h
        obtain ⟨hi, hhi, h⟩ := bind_ok_iff.mp h
        cases h
        obtain ⟨hs', hpc', _⟩ := fetchByte_frame (fetchOperand_ok_iff.mp hlo)
        obtain ⟨hs'', hpc'', hlt''⟩ := fetchByte_frame (fetchOperand_ok_iff.mp hhi)
        refine ⟨f (wordOf hi.1 lo.1), hi.2, rfl, (hs.trans hs').trans hs'', ?_, by omega⟩
        have := (hrow (wordOf hi.1 lo.1)).2
        omega

/-- What `fetch` raises: `UnknownOpcode` or `TruncatedOperand`, with nothing changed but PC and the draws. -/
theorem fetch_error {s : State} {f : Fault} (h : fetch s = .error f) :
    ∃ t op, SameButFetch s t ∧
      ((lookup op = none ∧ f = .unknownOpcode op (t.faulted .unknownOpcode)) ∨
        f = .truncatedOperand op (t.faulted .truncatedOperand)) := by
  unfold fetch at h
  split at h
  · cases h
  · rename_i hpc
    obtain h | ⟨op, hop, h⟩ := bind_error_iff.mp h
    · exact absurd h (fetchByte_not_error (Nat.not_le.mp hpc))
    · have hs := (fetchByte_frame hop).1
      cases hl : lookup op.1 with
      | none =>
        rw [hl] at h
        cases h
        exact ⟨op.2, op.1, hs, .inl ⟨hl, rfl⟩⟩
      | some e =>
        rw [hl] at h
        cases e with
        | noOperand i => cases h
        | byteOperand g =>
          obtain h | ⟨b, _, h⟩ := bind_error_iff.mp h
          · exact ⟨op.2, op.1, hs, .inr (fetchOperand_error_iff.mp h).2⟩
          · cases h
        | wordOperand g =>
          obtain h | ⟨lo, hlo, h⟩ := bind_error_iff.mp h
          · exact ⟨op.2, op.1, hs, .inr (fetchOperand_error_iff.mp h).2⟩
          · have hs' := (fetchByte_frame (fetchOperand_ok_iff.mp hlo)).1
            obtain h | ⟨hi, _, h⟩ := bind_error_iff.mp h
            · exact ⟨lo.2, op.1, hs.trans hs', .inr (fetchOperand_error_iff.mp h).2⟩
            · cases h

/-! ## The host window -/

/-- Taking the host's move changes the moves that are left and nothing else. -/
theorem nextMove_state (s : State) :
    (nextMove s).2 = (s.withHost (nextMove s).2.host).withHostRest (nextMove s).2.hostRest := by
  unfold nextMove
  split
  · rfl
  · split <;> rfl

theorem nextMove_dirty (s : State) (d : Bool) :
    nextMove (s.withDirty d) = ((nextMove s).1, (nextMove s).2.withDirty d) := by
  unfold nextMove
  rw [State.withDirty_host, State.withDirty_hostRest]
  split
  · rfl
  · split <;> rfl

/-- The whole window: the move is taken, its key written over a clear `dirty`, its quit answered. -/
theorem hostWindow_eq (s : State) :
    hostWindow s =
      let move := nextMove s
      let t := keyWrite move.1.key (move.2.withDirty false)
      (t.withRunning (s.running && !move.1.quit)).withStatus
        (if s.running && !move.1.quit then s.status else .quit) := by
  have hs := nextMove_state s
  unfold hostWindow inputPoll displaySync
  rw [nextMove_dirty]
  generalize nextMove s = m at hs ⊢
  obtain ⟨⟨key, quit⟩, u⟩ := m
  dsimp only at hs ⊢
  have hr : u.running = s.running := by rw [hs]; rfl
  have ht : u.status = s.status := by rw [hs]; rfl
  rw [← hr, ← ht]
  cases key <;> cases quit <;> cases hq : u.running <;>
    simp [keyWrite, storeCell, hq, State.withDirty, State.withMem, State.withRunning, State.withStatus]

/-- What a host window leaves alone, and that it keeps the canonical form of memory. -/
theorem hostWindow_frame (s : State) :
    (hostWindow s).a = s.a ∧ (hostWindow s).x = s.x ∧ (hostWindow s).y = s.y ∧ (hostWindow s).sp = s.sp ∧
      (hostWindow s).pc = s.pc ∧ (hostWindow s).ispc = s.ispc ∧ (hostWindow s).p = s.p ∧
      (hostWindow s).snapshot = s.snapshot ∧
      ((hostWindow s).status = s.status ∨ (hostWindow s).status = .quit) ∧
      (Memory.wf memSize s.mem = true → Memory.wf memSize (hostWindow s).mem = true) := by
  have hs := nextMove_state s
  rw [hostWindow_eq]
  generalize nextMove s = m at hs ⊢
  obtain ⟨⟨key, quit⟩, u⟩ := m
  dsimp only at hs ⊢
  have hst : ∀ b : Bool, (if b then s.status else .quit) = s.status ∨ (if b then s.status else .quit) = .quit
    | false => .inr rfl
    | true => .inl rfl
  have hwf (k : Fin 4) (h : Memory.wf memSize s.mem = true) :
      Memory.wf memSize (setCell s.mem Config.keyAddr (Config.keyCode k)) = true :=
    setCell_wf _ h (show Config.keyAddr < memSize from Config.keyAddrIndex.isLt)
  rw [hs]
  unfold keyWrite
  cases key with
  | none =>
    refine ⟨by simp, by simp, by simp, by simp, by simp, by simp, by simp, by simp, ?_, by simp⟩
    rw [State.withStatus_status]
    exact hst _
  | some k =>
    refine ⟨by simp, by simp, by simp, by simp, by simp, by simp, by simp, by simp, ?_, by simpa using hwf k⟩
    rw [State.withStatus_status]
    exact hst _

/-! ## The step -/

/-- The ways a step can answer a next state. -/
theorem step_next {s t : State} (h : step s = .next t) :
    (s.status ≠ .running ∧ t = s) ∨
      (s.status = .running ∧ memSize ≤ s.pc ∧ t = s.withStatus .ended) ∨
      (s.status = .running ∧ ∃ i s1 u, fetch s = .ok (some i, s1) ∧ exec i s1 = .next u ∧
        t = if u.status = .stopped then u else hostWindow u) := by
  unfold step at h
  split at h
  case h_1 hst =>
    right
    split at h
    · cases h
    · rename_i s1 hf
      cases h
      obtain ⟨hpc, hr⟩ | ⟨i, u, hr, _⟩ := fetch_ok hf
      · cases hr
        exact .inl ⟨hst, hpc, rfl⟩
      · cases hr
    · rename_i i s1 hf
      right
      cases he : exec i s1 with
      | next u =>
        rw [he] at h
        refine ⟨hst, i, s1, u, hf, he, ?_⟩
        unfold afterExec at h
        dsimp only at h
        split at h
        · rename_i hu
          cases h
          rw [if_pos hu]
        · rename_i hu
          cases h
          rw [if_neg hu]
      | fault f => rw [he] at h; cases h
      | refused r => rw [he] at h; cases h
  all_goals
    cases h
    exact .inl ⟨by simp_all, rfl⟩

/-- The ways a step can end in a fault: at the fetch, or in the instruction's body. -/
theorem step_fault {s : State} {f : Fault} (h : step s = .fault f) :
    s.status = .running ∧
      (fetch s = .error f ∨ ∃ i s1, fetch s = .ok (some i, s1) ∧ exec i s1 = .fault f) := by
  unfold step at h
  split at h
  case h_1 hst =>
    refine ⟨hst, ?_⟩
    split at h
    · rename_i g hf
      cases h
      exact .inl hf
    · cases h
    · rename_i i s1 hf
      cases he : exec i s1 with
      | next u =>
        rw [he] at h
        unfold afterExec at h
        dsimp only at h
        split at h <;> cases h
      | fault g => rw [he] at h; cases h; exact .inr ⟨i, s1, hf, he⟩
      | refused r => rw [he] at h; cases h
  all_goals cases h

end Sys2Proof.Machine
end

