-- ==== Sys2Proof/Tests/Slice0.lean ====
section
/-! SUPPORT. Tests of the model: WellFormed, decoding from words written out from 30_encoding.md R127 and R121, the
vectors of 95_test_vectors.md, and a witness for the hypotheses of each obligation. -/

namespace Sys2Proof.Tests

open Sys2Proof Sys2Proof.Machine

/-- The start state of 95_test_vectors.md: power-on, the bytes placed, more cells set, entered there and booted. -/
def start (pc : Nat) (bytes : List Byte) (cells : List Host.Cell) : State :=
  let mem := cells.foldl (fun m c => setCell m c.1 c.2) (setCells [] pc bytes)
  hostBoot (((State.powerOn.withMem mem).withPc pc).withIspc pc)

/-- The answer is a next state that meets the check. -/
def sees (o : Answer) (check : State → Bool) : Bool :=
  match o with
  | .next t => check t
  | _ => false

/-- The answer is a fault of this kind, with the status it leaves, and the machine at the fault meets the check. -/
def faults (o : Answer) (k : ErrorKind) (check : State → Bool) : Bool :=
  match o with
  | .fault f => f.kind == k && f.state.status == .faulted k && check f.state
  | _ => false

/-! ## WellFormed: pairs of mnemonic and mode that 30_encoding.md R122 does not list are refused -/

theorem test_wf_lda_zpY : allows .lda (.operand (.address (.zeroPage 0 .y))) = false := by decide

theorem test_wf_lda_accumulator : allows .lda .accumulator = false := by decide

theorem test_wf_sta_immediate : allows .sta (.operand (.immediate 0)) = false := by decide

theorem test_wf_sta_zpY : allows .sta (.operand (.address (.zeroPage 0 .y))) = false := by decide

theorem test_wf_asl_absY : allows .asl (.operand (.address (.absolute 0 .y))) = false := by decide

theorem test_wf_asl_implied : allows .asl .implied = false := by decide

theorem test_wf_inc_accumulator : allows .inc .accumulator = false := by decide

theorem test_wf_inc_zpY : allows .inc (.operand (.address (.zeroPage 0 .y))) = false := by decide

theorem test_wf_dec_absY : allows .dec (.operand (.address (.absolute 0 .y))) = false := by decide

theorem test_wf_ldx_zpX : allows .ldx (.operand (.address (.zeroPage 0 .x))) = false := by decide

theorem test_wf_ldx_absX : allows .ldx (.operand (.address (.absolute 0 .x))) = false := by decide

theorem test_wf_ldy_zpY : allows .ldy (.operand (.address (.zeroPage 0 .y))) = false := by decide

theorem test_wf_ldy_absY : allows .ldy (.operand (.address (.absolute 0 .y))) = false := by decide

theorem test_wf_cpx_zpX : allows .cpx (.operand (.address (.zeroPage 0 .x))) = false := by decide

theorem test_wf_cpy_absX : allows .cpy (.operand (.address (.absolute 0 .x))) = false := by decide

theorem test_wf_stx_absY : allows .stx (.operand (.address (.absolute 0 .y))) = false := by decide

theorem test_wf_stx_zpX : allows .stx (.operand (.address (.zeroPage 0 .x))) = false := by decide

theorem test_wf_sty_absX : allows .sty (.operand (.address (.absolute 0 .x))) = false := by decide

theorem test_wf_sty_zpY : allows .sty (.operand (.address (.zeroPage 0 .y))) = false := by decide

theorem test_wf_bit_immediate : allows .bit (.operand (.immediate 0)) = false := by decide

theorem test_wf_bit_absX : allows .bit (.operand (.address (.absolute 0 .x))) = false := by decide

theorem test_wf_bne_absolute : allows .bne (.operand (.address (.absolute 0 .none))) = false := by decide

theorem test_wf_jmp_absX : allows .jmp (.operand (.address (.absolute 0 .x))) = false := by decide

theorem test_wf_jsr_indirect : allows .jsr (.operand (.address (.indirect 0))) = false := by decide

theorem test_wf_jsr_absX : allows .jsr (.operand (.address (.absolute 0 .x))) = false := by decide

theorem test_wf_brk_accumulator : allows .brk .accumulator = false := by decide

/-! ## Decoding: words written out from the spec -/

/-- LDA: immediate A9, zero page,X B5, (zero page,X) A1. -/
theorem test_decode_load :
    decode [0xA9, 0x80] = .ok (.ldaImm 0x80, []) ∧ decode [0xB5, 0x10] = .ok (.ldaZpX 0x10, []) ∧
      decode [0xA1, 0x20] = .ok (.ldaIndX 0x20, []) := by decide

/-- STX zero page,Y 96; STY absolute 8C, low byte first (R113). -/
theorem test_decode_store :
    decode [0x96, 0xF0] = .ok (.stxZpY 0xF0, []) ∧ decode [0x8C, 0xFF, 0x07] = .ok (.styAbs 0x07FF, []) := by decide

/-- SBC absolute,Y F9; CPX immediate E0; DEX CA. -/
theorem test_decode_arith :
    decode [0xF9, 0x34, 0x12, 0xEA] = .ok (.sbcAbsY 0x1234, [0xEA]) ∧ decode [0xE0, 0x10] = .ok (.cpxImm 0x10, []) ∧
      decode [0xCA] = .ok (.dex, []) := by decide

/-- LSR accumulator 4A; ROR zero page,X 76. -/
theorem test_decode_shift :
    decode [0x4A] = .ok (.lsrAcc, []) ∧ decode [0x76, 0x02] = .ok (.rorZpX 0x02, []) := by decide

/-- BVC 50; JMP indirect 6C; JSR 20; RTS 60. -/
theorem test_decode_control :
    decode [0x50, 0xFE] = .ok (.bvc 0xFE, []) ∧ decode [0x6C, 0xFF, 0x02] = .ok (.jmpInd 0x02FF, []) ∧
      decode [0x20, 0x10, 0x06] = .ok (.jsr 0x0610, []) ∧ decode [0x60] = .ok (.rts, []) := by decide

/-- PHP 08; BRK with its pad byte 00 xx (R116); RTI 40; HALT FF (R124). -/
theorem test_decode_system :
    decode [0x08] = .ok (.php, []) ∧ decode [0x00, 0x77, 0x01] = .ok (.brk, [0x01]) ∧
      decode [0x40] = .ok (.rti, []) ∧ decode [0xFF, 0xFF] = .ok (.halt, [0xFF]) := by decide

/-- R123, R120, R119: an illegal byte, a missing operand byte, no byte. -/
theorem test_decode_refuses :
    decode [0x02, 0x00] = .error (.unknownOpcode 0x02) ∧ decode [0xAD, 0x00] = .error (.truncatedOperand 0xAD) ∧
      decode [] = .error .endOfStream := by decide

/-- The numbering of the opcode table: the first byte is the low one. -/
theorem test_table_word : decodeTableWord 24 0x060020 = some (.jsr 0x0600) := by decide

/-! ## One step each: 95_test_vectors.md, section 2 -/

/-- 95_test_vectors.md L1. -/
theorem test_lda_imm :
    sees (step (start 0x0600 [0xA9, 0x80] [])) (fun t => t.a == 0x80 && flagsByte t.p == 0x80) = true := by
  decide

/-- 95_test_vectors.md L2. -/
theorem test_lda_zp :
    sees (step { start 0x0600 [0xA5, 0x10] [(0x10, 0x00)] with a := 0x55 })
      (fun t => t.a == 0x00 && flagsByte t.p == 0x02) = true := by
  decide

/-- 95_test_vectors.md L3. -/
theorem test_lda_zpx_no_wrap :
    sees (step { start 0x0600 [0xB5, 0xFF] [(0x1FE, 0x42)] with x := 0xFF })
      (fun t => t.a == 0x42 && flagsByte t.p == 0x00) = true := by
  decide

/-- 95_test_vectors.md L4. -/
theorem test_lda_absy :
    sees (step { start 0x0600 [0xB9, 0x00, 0x02] [(0x210, 0x99)] with y := 0x10 })
      (fun t => t.a == 0x99 && flagsByte t.p == 0x80) = true := by
  decide

/-- 95_test_vectors.md L5. -/
theorem test_lda_indx :
    sees (step { start 0x0600 [0xA1, 0xF0] [(0x10, 0x34), (0x11, 0x02), (0x234, 0x77)] with x := 0x20 })
      (fun t => t.a == 0x77) = true := by
  decide

/-- 95_test_vectors.md L6. -/
theorem test_lda_indx_edge :
    sees (step (start 0x0600 [0xA1, 0xFF] [(0x100, 0x03), (0x300, 0x21)])) (fun t => t.a == 0x21) = true := by
  decide

/-- 95_test_vectors.md L7. -/
theorem test_lda_indy :
    sees (step { start 0x0600 [0xB1, 0x20] [(0x20, 0xFB), (0x21, 0x02), (0x300, 0x66)] with y := 0x05 })
      (fun t => t.a == 0x66) = true := by
  decide

/-- 95_test_vectors.md L8. -/
theorem test_lda_random :
    sees (step { start 0x0600 [0xA5, 0xFE] [(0xFE, 0xAA)] with draws := [8] })
      (fun t => t.a == 0x09 && flagsByte t.p == 0x00 && t.draws == []) = true := by
  decide

/-- 95_test_vectors.md L9. -/
theorem test_ldx_zpy :
    sees (step { start 0x0600 [0xB6, 0x10] [(0x12, 0xFF)] with y := 0x02 })
      (fun t => t.x == 0xFF && flagsByte t.p == 0x80) = true := by
  decide

/-- 95_test_vectors.md L10. -/
theorem test_ldy_imm :
    sees (step { start 0x0600 [0xA0, 0x00] [] with y := 0x05 })
      (fun t => t.y == 0x00 && flagsByte t.p == 0x02) = true := by
  decide

/-- 95_test_vectors.md L11. -/
theorem test_sta_zp :
    sees (step { start 0x0600 [0x85, 0x10] [] with p := flagsFromByte 0x80 })
      (fun t => cellAt t.mem 0x10 == 0x00 && flagsByte t.p == 0x80) = true := by
  decide

/-- 95_test_vectors.md L14. -/
theorem test_stx_zpy :
    sees (step { start 0x0600 [0x96, 0xF0] [] with x := 0x33, y := 0x20 })
      (fun t => cellAt t.mem 0x110 == 0x33 && cellAt t.mem 0x10 == 0x00) = true := by
  decide

/-- 95_test_vectors.md L15. -/
theorem test_sty_abs_last_cell :
    sees (step { start 0x0600 [0x8C, 0xFF, 0x07] [] with y := 0x44 })
      (fun t => cellAt t.mem 0x7FF == 0x44) = true := by
  decide

/-- 95_test_vectors.md L16. -/
theorem test_tax :
    sees (step { start 0x0600 [0xAA] [] with a := 0x80 }) (fun t => t.x == 0x80 && flagsByte t.p == 0x80) = true := by
  decide

/-- 95_test_vectors.md L17. -/
theorem test_tay :
    sees (step { start 0x0600 [0xA8] [] with a := 0x00, y := 0x09 })
      (fun t => t.y == 0x00 && flagsByte t.p == 0x02) = true := by
  decide

/-- 95_test_vectors.md L18. -/
theorem test_txa :
    sees (step { start 0x0600 [0x8A] [] with x := 0x7F }) (fun t => t.a == 0x7F && flagsByte t.p == 0x00) = true := by
  decide

/-- 95_test_vectors.md L19. -/
theorem test_tya :
    sees (step { start 0x0600 [0x98] [] with y := 0xFF }) (fun t => t.a == 0xFF && flagsByte t.p == 0x80) = true := by
  decide

/-- 95_test_vectors.md L20. -/
theorem test_tsx :
    sees (step { start 0x0600 [0xBA] [] with sp := 0x00, x := 0x07 })
      (fun t => t.x == 0x00 && flagsByte t.p == 0x02) = true := by
  decide

/-- 95_test_vectors.md L21. -/
theorem test_txs_no_flags :
    sees (step { start 0x0600 [0x9A] [] with x := 0x00, p := flagsFromByte 0x80 })
      (fun t => t.sp == 0x00 && flagsByte t.p == 0x80) = true := by
  decide

/-- 95_test_vectors.md A1. -/
theorem test_adc_carry_out :
    sees (step { start 0x0600 [0x69, 0x01] [] with a := 0xFF })
      (fun t => t.a == 0x00 && flagsByte t.p == 0x03) = true := by
  decide

/-- 95_test_vectors.md A5. -/
theorem test_adc_overflow :
    sees (step { start 0x0600 [0x69, 0x80] [] with a := 0x80 })
      (fun t => t.a == 0x00 && flagsByte t.p == 0x43) = true := by
  decide

/-- 95_test_vectors.md A6. -/
theorem test_adc_second_addition :
    sees (step { start 0x0600 [0x69, 0xFF] [] with a := 0x00, p := flagsFromByte 0x01 })
      (fun t => t.a == 0x00 && flagsByte t.p == 0x03) = true := by
  decide

/-- 95_test_vectors.md A12. -/
theorem test_sbc_borrow_overflow :
    sees (step { start 0x0600 [0xE9, 0xB0] [] with a := 0x50, p := flagsFromByte 0x01 })
      (fun t => t.a == 0xA0 && flagsByte t.p == 0xC0) = true := by
  decide

/-- 95_test_vectors.md A13. -/
theorem test_sbc_second_subtraction :
    sees (step { start 0x0600 [0xE9, 0x00] [] with a := 0x00 })
      (fun t => t.a == 0xFF && flagsByte t.p == 0x80) = true := by
  decide

/-- 95_test_vectors.md A15. -/
theorem test_and_imm :
    sees (step { start 0x0600 [0x29, 0x3C] [] with a := 0xF0 })
      (fun t => t.a == 0x30 && flagsByte t.p == 0x00) = true := by
  decide

/-- 95_test_vectors.md A16. -/
theorem test_ora_imm :
    sees (step { start 0x0600 [0x09, 0x80] [] with a := 0x0F })
      (fun t => t.a == 0x8F && flagsByte t.p == 0x80) = true := by
  decide

/-- 95_test_vectors.md A17. -/
theorem test_eor_imm :
    sees (step { start 0x0600 [0x49, 0xFF] [] with a := 0xAA })
      (fun t => t.a == 0x55 && flagsByte t.p == 0x00) = true := by
  decide

/-- 95_test_vectors.md A18. -/
theorem test_eor_zp :
    sees (step { start 0x0600 [0x45, 0x10] [(0x10, 0x5A)] with a := 0x5A })
      (fun t => t.a == 0x00 && flagsByte t.p == 0x02) = true := by
  decide

/-- 95_test_vectors.md A19. -/
theorem test_bit_zp :
    sees (step { start 0x0600 [0x24, 0x10] [(0x10, 0xC0)] with a := 0x01 })
      (fun t => t.a == 0x01 && flagsByte t.p == 0xC2) = true := by
  decide

/-- 95_test_vectors.md A20. -/
theorem test_bit_abs :
    sees (step { start 0x0600 [0x2C, 0x00, 0x03] [(0x300, 0x3F)] with a := 0xFF, p := flagsFromByte 0xC0 })
      (fun t => flagsByte t.p == 0x00) = true := by
  decide

/-- 95_test_vectors.md A21. -/
theorem test_cmp_equal :
    sees (step { start 0x0600 [0xC9, 0x05] [] with a := 0x05 }) (fun t => flagsByte t.p == 0x03) = true := by
  decide

/-- 95_test_vectors.md A24. -/
theorem test_cmp_keeps_v :
    sees (step { start 0x0600 [0xC9, 0x81] [] with a := 0x01, p := flagsFromByte 0x40 })
      (fun t => flagsByte t.p == 0xC0) = true := by
  decide

/-- 95_test_vectors.md A25. -/
theorem test_cpx_imm :
    sees (step { start 0x0600 [0xE0, 0x10] [] with x := 0x20 }) (fun t => flagsByte t.p == 0x01) = true := by
  decide

/-- 95_test_vectors.md A26. -/
theorem test_cpy_zp :
    sees (step { start 0x0600 [0xC4, 0x10] [(0x10, 0xFF)] with y := 0x00 })
      (fun t => flagsByte t.p == 0x00) = true := by
  decide

/-- 95_test_vectors.md A27. -/
theorem test_inc_zp_wraps :
    sees (step { start 0x0600 [0xE6, 0x10] [(0x10, 0xFF)] with p := flagsFromByte 0x01 })
      (fun t => cellAt t.mem 0x10 == 0x00 && flagsByte t.p == 0x03) = true := by
  decide

/-- 95_test_vectors.md A28. -/
theorem test_inc_abs :
    sees (step (start 0x0600 [0xEE, 0x00, 0x03] [(0x300, 0x7F)]))
      (fun t => cellAt t.mem 0x300 == 0x80 && flagsByte t.p == 0x80) = true := by
  decide

/-- 95_test_vectors.md A29. -/
theorem test_dec_zp_wraps :
    sees (step (start 0x0600 [0xC6, 0x10] []))
      (fun t => cellAt t.mem 0x10 == 0xFF && flagsByte t.p == 0x80) = true := by
  decide

/-- 95_test_vectors.md A30. -/
theorem test_dec_absx :
    sees (step { start 0x0600 [0xDE, 0x00, 0x03] [(0x301, 0x01)] with x := 0x01 })
      (fun t => cellAt t.mem 0x301 == 0x00 && flagsByte t.p == 0x02) = true := by
  decide

/-- 95_test_vectors.md A31. -/
theorem test_inx_wraps :
    sees (step { start 0x0600 [0xE8] [] with x := 0xFF }) (fun t => t.x == 0x00 && flagsByte t.p == 0x02) = true := by
  decide

/-- 95_test_vectors.md A32. -/
theorem test_iny :
    sees (step { start 0x0600 [0xC8] [] with y := 0x7F }) (fun t => t.y == 0x80 && flagsByte t.p == 0x80) = true := by
  decide

/-- 95_test_vectors.md A33. -/
theorem test_dex_wraps :
    sees (step { start 0x0600 [0xCA] [] with x := 0x00 }) (fun t => t.x == 0xFF && flagsByte t.p == 0x80) = true := by
  decide

/-- 95_test_vectors.md A34. -/
theorem test_dey :
    sees (step { start 0x0600 [0x88] [] with y := 0x01 }) (fun t => t.y == 0x00 && flagsByte t.p == 0x02) = true := by
  decide

/-- 95_test_vectors.md H1. -/
theorem test_asl_acc :
    sees (step { start 0x0600 [0x0A] [] with a := 0x81 }) (fun t => t.a == 0x02 && flagsByte t.p == 0x01) = true := by
  decide

/-- 95_test_vectors.md H3. -/
theorem test_lsr_zp :
    sees (step (start 0x0600 [0x46, 0x10] [(0x10, 0x03)]))
      (fun t => cellAt t.mem 0x10 == 0x01 && flagsByte t.p == 0x01) = true := by
  decide

/-- 95_test_vectors.md H4. -/
theorem test_lsr_acc :
    sees (step { start 0x0600 [0x4A] [] with a := 0x01, p := flagsFromByte 0x80 })
      (fun t => t.a == 0x00 && flagsByte t.p == 0x03) = true := by
  decide

/-- 95_test_vectors.md H5. -/
theorem test_rol_acc :
    sees (step { start 0x0600 [0x2A] [] with a := 0x55, p := flagsFromByte 0x01 })
      (fun t => t.a == 0xAB && flagsByte t.p == 0x80) = true := by
  decide

/-- 95_test_vectors.md H7. -/
theorem test_ror_acc :
    sees (step { start 0x0600 [0x6A] [] with a := 0x02, p := flagsFromByte 0x01 })
      (fun t => t.a == 0x81 && flagsByte t.p == 0x80) = true := by
  decide

/-- 95_test_vectors.md H8. -/
theorem test_ror_absx :
    sees (step { start 0x0600 [0x7E, 0x00, 0x03] [(0x302, 0x01)] with x := 0x02 })
      (fun t => cellAt t.mem 0x302 == 0x00 && flagsByte t.p == 0x03) = true := by
  decide

/-- 95_test_vectors.md H9. -/
theorem test_asl_random :
    sees (step { start 0x0600 [0x06, 0xFE] [] with draws := [8] })
      (fun t => cellAt t.mem 0xFE == 0x12 && flagsByte t.p == 0x00) = true := by
  decide

/-- 95_test_vectors.md C1. -/
theorem test_bne_taken :
    sees (step (start 0x0600 [0xD0, 0x05] [])) (fun t => t.pc == 0x0605 && t.ispc == 0x0605) = true := by
  decide

/-- 95_test_vectors.md C2. -/
theorem test_bne_not_taken :
    sees (step { start 0x0600 [0xD0, 0x05] [] with p := flagsFromByte 0x02 })
      (fun t => t.pc == 0x0602 && t.ispc == 0x0602) = true := by
  decide

/-- 95_test_vectors.md C3. -/
theorem test_beq_back :
    sees (step { start 0x0610 [0xF0, 0xFC] [] with p := flagsFromByte 0x02 }) (fun t => t.pc == 0x060C) = true := by
  decide

/-- 95_test_vectors.md C4. -/
theorem test_bpl_itself :
    sees (step (start 0x0600 [0x10, 0x00] [])) (fun t => t.pc == 0x0600 && t.ispc == 0x0600) = true := by
  decide

/-- 95_test_vectors.md C5. -/
theorem test_bmi_not_taken :
    sees (step (start 0x0600 [0x30, 0x10] [])) (fun t => t.pc == 0x0602) = true := by
  decide

/-- 95_test_vectors.md C6. -/
theorem test_bvc_taken :
    sees (step (start 0x0600 [0x50, 0x10] [])) (fun t => t.pc == 0x0610) = true := by
  decide

/-- 95_test_vectors.md C7. -/
theorem test_bvs_not_taken :
    sees (step (start 0x0600 [0x70, 0x10] [])) (fun t => t.pc == 0x0602) = true := by
  decide

/-- 95_test_vectors.md C8. -/
theorem test_bcc_far :
    sees (step (start 0x0600 [0x90, 0x7F] [])) (fun t => t.pc == 0x067F) = true := by
  decide

/-- 95_test_vectors.md C9. -/
theorem test_bcs_back :
    sees (step { start 0x0600 [0xB0, 0x80] [] with p := flagsFromByte 0x01 }) (fun t => t.pc == 0x0580) = true := by
  decide

/-- 95_test_vectors.md C10. -/
theorem test_bcs_last_target :
    sees (step { start 0x0781 [0xB0, 0x7E] [] with p := flagsFromByte 0x01 })
      (fun t => t.pc == 0x07FF && t.ispc == 0x07FF) = true := by
  decide

/-- 95_test_vectors.md C11. -/
theorem test_jmp_abs :
    sees (step (start 0x0600 [0x4C, 0x34, 0x06] [])) (fun t => t.pc == 0x0634 && t.ispc == 0x0634) = true := by
  decide

/-- 95_test_vectors.md C13. -/
theorem test_jmp_ind_no_wrap :
    sees (step (start 0x0600 [0x6C, 0xFF, 0x02] [(0x300, 0x04), (0x200, 0x07)]))
      (fun t => t.pc == 0x0400) = true := by
  decide

/-- 95_test_vectors.md C14. -/
theorem test_jsr :
    sees (step (start 0x0600 [0x20, 0x10, 0x06] []))
      (fun t => cellAt t.mem 0x1FF == 0x06 && cellAt t.mem 0x1FE == 0x03 && t.sp == 0xFD && t.pc == 0x0610) = true := by
  decide

/-- 95_test_vectors.md C15. -/
theorem test_rts :
    sees (step { start 0x0610 [0x60] [(0x1FE, 0x03), (0x1FF, 0x06)] with sp := 0xFD })
      (fun t => t.sp == 0xFF && t.pc == 0x0603 && t.ispc == 0x0603) = true := by
  decide

/-- 95_test_vectors.md Y1. -/
theorem test_pha :
    sees (step { start 0x0600 [0x48] [] with a := 0x42 })
      (fun t => cellAt t.mem 0x1FF == 0x42 && t.sp == 0xFE) = true := by
  decide

/-- 95_test_vectors.md Y2. -/
theorem test_pha_last :
    sees (step { start 0x0600 [0x48] [] with a := 0x42, sp := 0x01 })
      (fun t => cellAt t.mem 0x101 == 0x42 && t.sp == 0x00) = true := by
  decide

/-- 95_test_vectors.md Y3. -/
theorem test_pla :
    sees (step { start 0x0600 [0x68] [(0x1FF, 0x80)] with sp := 0xFE })
      (fun t => t.a == 0x80 && flagsByte t.p == 0x80 && t.sp == 0xFF) = true := by
  decide

/-- 95_test_vectors.md Y4. -/
theorem test_php :
    sees (step { start 0x0600 [0x08] [] with p := flagsFromByte 0x03 })
      (fun t => cellAt t.mem 0x1FF == 0x13 && t.sp == 0xFE && flagsByte t.p == 0x03) = true := by
  decide

/-- 95_test_vectors.md Y5. -/
theorem test_php_all :
    sees (step { start 0x0600 [0x08] [] with p := flagsFromByte 0xDF })
      (fun t => cellAt t.mem 0x1FF == 0xDF && t.sp == 0xFE) = true := by
  decide

/-- 95_test_vectors.md Y6. -/
theorem test_plp :
    sees (step { start 0x0600 [0x28] [(0x1FF, 0xC3)] with sp := 0xFE })
      (fun t => flagsByte t.p == 0xC3 && t.sp == 0xFF) = true := by
  decide

/-- 95_test_vectors.md Y8. -/
theorem test_plp_drops_bit5 :
    sees (step { start 0x0600 [0x28] [(0x1FF, 0x20)] with sp := 0xFE, p := flagsFromByte 0x01 })
      (fun t => flagsByte t.p == 0x00) = true := by
  decide

/-- 95_test_vectors.md Y11. -/
theorem test_rti :
    sees (step { start 0x0640 [0x40] [(0x1FD, 0x11), (0x1FE, 0x02), (0x1FF, 0x06)] with sp := 0xFC, p := flagsFromByte 0x04 })
      (fun t => flagsByte t.p == 0x11 && t.sp == 0xFF && t.pc == 0x0602 && t.ispc == 0x0602) = true := by
  decide

/-- 95_test_vectors.md Y12. -/
theorem test_nop :
    sees (step (start 0x0600 [0xEA] []))
      (fun t => t.pc == 0x0601 && t.ispc == 0x0601 && flagsByte t.p == 0x00) = true := by
  decide

/-- 95_test_vectors.md Y13. -/
theorem test_halt :
    sees (step { start 0x0600 [0xFF] [] with a := 0x03, p := flagsFromByte 0x80 })
      (fun t => t.pc == 0x0601 && t.ispc == 0x0600 && t.a == 0x03 && t.status == .stopped) = true := by
  decide

/-- 95_test_vectors.md Y14. -/
theorem test_sec :
    sees (step (start 0x0600 [0x38] [])) (fun t => flagsByte t.p == 0x01) = true := by
  decide

/-- 95_test_vectors.md Y14. -/
theorem test_clc :
    sees (step { start 0x0600 [0x18] [] with p := flagsFromByte 0x01 }) (fun t => flagsByte t.p == 0x00) = true := by
  decide

/-- 95_test_vectors.md Y15. -/
theorem test_sei :
    sees (step (start 0x0600 [0x78] [])) (fun t => flagsByte t.p == 0x04) = true := by
  decide

/-- 95_test_vectors.md Y15. -/
theorem test_cli :
    sees (step { start 0x0600 [0x58] [] with p := flagsFromByte 0x04 }) (fun t => flagsByte t.p == 0x00) = true := by
  decide

/-- 95_test_vectors.md Y16. -/
theorem test_sed :
    sees (step (start 0x0600 [0xF8] [])) (fun t => flagsByte t.p == 0x08) = true := by
  decide

/-- 95_test_vectors.md Y16. -/
theorem test_cld :
    sees (step { start 0x0600 [0xD8] [] with p := flagsFromByte 0x08 }) (fun t => flagsByte t.p == 0x00) = true := by
  decide

/-- 95_test_vectors.md Y17. -/
theorem test_clv :
    sees (step { start 0x0600 [0xB8] [] with p := flagsFromByte 0x40 }) (fun t => flagsByte t.p == 0x00) = true := by
  decide

/-- 95_test_vectors.md F8, first step. -/
theorem test_nop_at_last_cell :
    sees (step (start 0x07FF [0xEA] []))
      (fun t => t.pc == 0x0800 && t.ispc == 0x0800 && t.status == .running) = true := by
  decide

/-- 95_test_vectors.md L13: storing a different byte in the display region sets `dirty`. -/
theorem test_sta_dirty (h : Config.displayBase = 0x0200) :
    sees (exec (.staAbs 0x0200) { start 0x0600 [] [] with a := 0x05 }) (fun t => t.dirty) = true := by
  have : sees (exec (.staAbs 0x0200) { start 0x0600 [] [] with a := 0x05 }) (fun t => t.dirty) =
      inDisplay 0x0200 := by
    cases hd : inDisplay 0x0200 <;> simp [sees, exec, execStaAbs, sta, storeThen, finish, resolveAddress, indexed,
      memWrite, storeCell, advance, memSize, start, hostBoot, State.powerOn, setCells, cellAt, bind, Except.bind, hd,
      State.withMem, State.withPc, State.withIspc, State.withRunning, State.withStatus, State.withDirty]
  rw [this]
  simp [inDisplay, h, displaySize]

/-- BRK with the vector address as an argument, so that a test can put a value for the OPEN one. -/
def brkAt (vector : Word) (s : State) : Answer := finish do
  let s ← push16 (pcWord s) s
  let s ← pushFlags brkOverride s
  let t ← memRead16 vector.toNat (s.withP { s.p with i := true })
  goto t.1.toNat t.2

/-- What BRK does is what `brkAt` does at the vector address. -/
theorem test_brkAt (s : State) : exec .brk s = brkAt Config.irqVector s := rfl

/-- BRK is fetched with its pad byte. -/
theorem test_brk_fetch :
    fetch (start 0x0600 [0x00, 0x00] [(0x07FE, 0x40), (0x07FF, 0x06)]) =
      .ok (some .brk, { start 0x0600 [0x00, 0x00] [(0x07FE, 0x40), (0x07FF, 0x06)] with pc := 0x0602 }) := by
  decide

/-- 95_test_vectors.md Y9: BRK at the candidate value of the OPEN vector address. -/
theorem test_brk (h : Config.irqVector = 0x07FE) :
    sees (exec .brk { start 0x0602 [] [(0x07FE, 0x40), (0x07FF, 0x06)] with p := flagsFromByte 0x01 })
      (fun t => cellAt t.mem 0x1FF == 0x06 && cellAt t.mem 0x1FE == 0x02 && cellAt t.mem 0x1FD == 0x11 &&
        t.sp == 0xFC && flagsByte t.p == 0x05 && t.pc == 0x0640 && t.ispc == 0x0640) = true := by
  rw [test_brkAt, h]
  decide

/-- 95_test_vectors.md F17: BRK at the source's literal vector address faults at the vector read. -/
theorem test_fault_brk_literal (h : Config.irqVector = 0xFFFE) :
    faults (exec .brk (start 0x0602 [] [])) .outOfBounds
      (fun t => cellAt t.mem 0x1FF == 0x06 && cellAt t.mem 0x1FE == 0x02 && cellAt t.mem 0x1FD == 0x10 &&
        t.sp == 0xFC && t.p.i && t.pc == 0x0602) = true := by
  rw [test_brkAt, h]
  decide

/-- 95_test_vectors.md F8, second step: no byte is left at the end of memory. -/
theorem test_end_of_stream :
    sees (step (start 0x0800 [] [])) (fun t => t.status == .ended && t.pc == 0x0800) = true := by
  decide

/-- 46 R268, R269: the host writes a key and quits in the window after a NOP. -/
theorem test_host_window :
    sees (step { start 0x0600 [0xEA] [] with host := [{ key := some 2, quit := true }] })
      (fun t => t.status == .quit && !t.running && t.host == [] && t.pc == 0x0601) = true := by
  decide

/-- 46 R271: an open-ended schedule comes after the listed moves, and goes on window by window. -/
theorem test_host_free :
    let s := { start 0x0600 [0xEA] [] with host := [{ key := none, quit := false }], hostRest := .free 7 }
    (nextMove s).2.hostRest = .free 7 ∧ (nextMove (nextMove s).2).2.hostRest = .free 8 :=
  ⟨rfl, rfl⟩

/-! ## Faults: 95_test_vectors.md, section 3 -/

/-- 95_test_vectors.md F1, second instruction. -/
theorem test_fault_unknown_opcode :
    faults (step (start 0x0602 [0x02] [])) .unknownOpcode (fun t => t.pc == 0x0603 && t.ispc == 0x0602) = true := by
  decide

/-- 95_test_vectors.md F2. -/
theorem test_fault_pla_empty :
    faults (step (start 0x0600 [0x68] [])) .stackUnderflow (fun t => t.sp == 0xFF && t.pc == 0x0601 && t.ispc == 0x0600) = true := by
  decide

/-- 95_test_vectors.md F3. -/
theorem test_fault_jmp_out :
    faults (step (start 0x0600 [0x4C, 0x00, 0x08] [])) .invalidTarget (fun t => t.pc == 0x0603 && t.ispc == 0x0600) = true := by
  decide

/-- 95_test_vectors.md F4. -/
theorem test_fault_pha_after_reset :
    faults (step { start 0x0600 [0x48] [] with sp := 0x00 }) .stackOverflow (fun t => t.sp == 0x00) = true := by
  decide

/-- 95_test_vectors.md F5. -/
theorem test_fault_truncated :
    faults (step (start 0x07FF [0xA9] [])) .truncatedOperand (fun t => t.pc == 0x0800 && t.ispc == 0x07FF) = true := by
  decide

/-- 95_test_vectors.md F6. -/
theorem test_fault_brk_no_pad :
    faults (step (start 0x07FF [0x00] [])) .truncatedOperand (fun t => t.pc == 0x0800 && t.sp == 0xFF) = true := by
  decide

/-- 95_test_vectors.md F7. -/
theorem test_fault_unknown_at_end :
    faults (step (start 0x07FF [0x02] [])) .unknownOpcode (fun t => t.pc == 0x0800 && t.ispc == 0x07FF) = true := by
  decide

/-- 95_test_vectors.md F9. -/
theorem test_fault_bne_below_zero :
    faults (step (start 0x0010 [0xD0, 0x80] [])) .addressCalculation (fun t => t.pc == 0x0012 && t.ispc == 0x0010) = true := by
  decide

/-- 95_test_vectors.md F10. -/
theorem test_fault_lda_out :
    faults (step { start 0x0600 [0xAD, 0x00, 0x08] [] with a := 0x07 }) .outOfBounds (fun t => t.a == 0x07) = true := by
  decide

/-- 95_test_vectors.md F11. -/
theorem test_fault_sta_absx_over :
    faults (step { start 0x0600 [0x9D, 0xFF, 0xFF] [] with x := 0x01 }) .addressCalculation (fun t => t.pc == 0x0603) = true := by
  decide

/-- 95_test_vectors.md F12. -/
theorem test_fault_sta_out :
    faults (step { start 0x0600 [0x8D, 0x00, 0x08] [] with a := 0x01 }) .outOfBounds (fun t => t.pc == 0x0603) = true := by
  decide

/-- 95_test_vectors.md F13. -/
theorem test_fault_bcs_out :
    faults (step { start 0x0781 [0xB0, 0x7F] [] with p := flagsFromByte 0x01 }) .invalidTarget (fun t => t.pc == 0x0783 && t.ispc == 0x0781) = true := by
  decide

/-- 95_test_vectors.md F14. -/
theorem test_fault_jsr_second_push :
    faults (step { start 0x0600 [0x20, 0x10, 0x06] [] with sp := 0x01 }) .stackOverflow (fun t => cellAt t.mem 0x101 == 0x06 && t.sp == 0x00 && t.pc == 0x0603 && t.ispc == 0x0600) = true := by
  decide

/-- 95_test_vectors.md F15. -/
theorem test_fault_jsr_out :
    faults (step (start 0x0600 [0x20, 0x00, 0x08] [])) .invalidTarget (fun t => cellAt t.mem 0x1FF == 0x06 && cellAt t.mem 0x1FE == 0x03 && t.sp == 0xFD && t.pc == 0x0603) = true := by
  decide

/-- 95_test_vectors.md F16. -/
theorem test_fault_rts_second_pop :
    faults (step { start 0x0600 [0x60] [(0x1FF, 0x06)] with sp := 0xFE }) .stackUnderflow (fun t => t.sp == 0xFF) = true := by
  decide

/-! ## Witnesses: states and operands that meet the hypotheses of the obligations, clause by clause -/

/-- A running machine at 0x0600, for the witnesses. -/
def w0 : State := start 0x0600 [0xEA] [(0x0010, 0x34), (0x0011, 0x06)]

theorem witness_DecodeOfEncode : WellFormed (.ldaAbsX 0xFFFF) = true ∧ WellFormed .brk = true := by decide

theorem witness_EncodeOfDecode :
    decode [0x00, 0xEA, 0x01] = .ok (.brk, [0x01]) ∧ decode [0xBD, 0xFF, 0xFF] = .ok (.ldaAbsX 0xFFFF, []) := by decide

theorem witness_UnknownOpcodeFaults :
    (start 0x07FF [0x02] []).status = .running ∧
      memRead 0x07FF (start 0x07FF [0x02] []) = .ok (0x02, start 0x07FF [0x02] []) ∧ (0x02 : Byte) ∈ illegalOpcodes ∧
      memRead 0x0600 w0 = .ok (0xEA, w0) ∧ (0xEA : Byte) ∉ illegalOpcodes := by decide

/-- Clause 1 at both ends: one byte missing, and two. -/
theorem witness_TruncatedOperandFaults :
    let s := start 0x07FE [0xAD, 0x00] []
    let t := start 0x07FF [0xAD] []
    (s.status = .running ∧ s.pc < memSize ∧ lookup (cellAt s.mem s.pc) = some (.wordOperand .ldaAbs) ∧
      memSize < s.pc + 1 + (Entry.wordOperand .ldaAbs).count) ∧
    (t.status = .running ∧ t.pc < memSize ∧ lookup (cellAt t.mem t.pc) = some (.wordOperand .ldaAbs) ∧
      memSize < t.pc + 1 + (Entry.wordOperand .ldaAbs).count) ∧
    step s = .fault (.truncatedOperand 0xAD ((s.withPc 0x0800).withStatus (.faulted .truncatedOperand))) :=
  ⟨⟨rfl, by decide, rfl, by decide⟩, ⟨rfl, by decide, rfl, by decide⟩, rfl⟩

theorem witness_EndOfStreamEnds :
    (start 0x0800 [] []).status = .running ∧ memSize ≤ (start 0x0800 [] []).pc := by decide

theorem witness_StepRunsDecodedInstruction :
    (w0.status = .running ∧ fetch w0 = .ok (some .nop, w0.withPc 0x0601) ∧
      ∃ t, exec .nop (w0.withPc 0x0601) = .next t ∧ t.status ≠ .stopped) ∧
    (fetch (start 0x0600 [0xFF] []) = .ok (some .halt, (start 0x0600 [0xFF] []).withPc 0x0601) ∧
      ∃ t, exec .halt ((start 0x0600 [0xFF] []).withPc 0x0601) = .next t ∧ t.status = .stopped) ∧
    (fetch (start 0x0600 [0x68] []) = .ok (some .pla, (start 0x0600 [0x68] []).withPc 0x0601) ∧
      ∃ f, exec .pla ((start 0x0600 [0x68] []).withPc 0x0601) = .fault f) :=
  ⟨⟨rfl, by decide, _, rfl, by decide⟩, ⟨by decide, _, rfl, rfl⟩, ⟨by decide, _, rfl⟩⟩

/-- The longest instruction in the last three cells; BRK with a pad byte that is not 0. -/
theorem witness_EncodedInstructionIsFetched :
    let s := start 0x07FD [0x8D, 0x34, 0x02] []
    let t := start 0x07FE [0x00, 0x77] []
    (s.pc + (encode (.staAbs 0x0234)).length ≤ memSize ∧ ∀ k (h : k < (encode (.staAbs 0x0234)).length),
      s.pc + k ≠ randomAddr ∧ cellAt s.mem (s.pc + k) = (encode (.staAbs 0x0234))[k]) ∧
    (t.pc + 2 ≤ memSize ∧ t.pc ≠ randomAddr ∧ t.pc + 1 ≠ randomAddr ∧ cellAt t.mem t.pc = 0x00) := by decide

theorem witness_NotRunningKeepsState : State.reset.status ≠ .running := by decide

/-- A listed move that types and quits; a silent host; a free one. -/
theorem witness_HostWindowEffect :
    (∃ moves, (w0.withHost [{ key := some 3, quit := true }]).host = { key := some 3, quit := true } :: moves) ∧
      (w0.host = [] ∧ w0.hostRest = .silent) ∧
      ((w0.withHostRest (.free 7)).host = [] ∧ (w0.withHostRest (.free 7)).hostRest = .free 7) :=
  ⟨⟨[], rfl⟩, ⟨rfl, rfl⟩, rfl, rfl⟩

theorem witness_StepKeepsInv : w0.Inv ∧ ∃ t, step w0 = .next t := by
  exact ⟨⟨by decide, by decide, by decide, by decide⟩, _, rfl⟩

theorem witness_HostLoadAndBoot :
    memSize < 2047 + [0x01, 0x02].length ∧ 2046 + [0x01, 0x02].length ≤ memSize ∧ 0 < [0x01, 0x02].length := by decide

theorem witness_FaultsAreTerminal :
    step (start 0x0600 [0x48] [] |>.withSp 0x00) =
      .fault (.stackOverflow (((start 0x0600 [0x48] []).withSp 0x00 |>.withPc 0x0601).withStatus
        (.faulted .stackOverflow))) := rfl

theorem witness_MemReadRule :
    memSize ≤ 2048 ∧ 2047 < memSize ∧ 2047 ≠ randomAddr ∧ (w0.withDraws [14]).draws = 14 :: [] ∧ w0.draws = [] ∧
      memRead randomAddr (w0.withDraws [14]) = .ok (0x0F, w0) ∧ memRead w0.pc w0 = .ok (0xEA, w0) := by decide

/-- The last pair of cells; an address outside; the last cell alone. -/
theorem witness_MemRead16Rule :
    (memRead 2046 w0 = .ok (0, w0) ∧ memRead (2046 + 1) w0 = .ok (0, w0)) ∧
      memRead 2048 w0 = .error (.outOfBounds 2048 (w0.withStatus (.faulted .outOfBounds))) ∧
      memRead 2047 w0 = .ok (0, w0) ∧
      memRead (2047 + 1) w0 = .error (.outOfBounds 2048 (w0.withStatus (.faulted .outOfBounds))) := by decide

theorem witness_MemWriteRule : memSize ≤ 2048 ∧ 2047 < memSize ∧ (2046 : Nat) ≠ 2047 := by decide

theorem witness_ReadAfterWrite :
    (∃ t, memWrite 0x07FF 0x55 w0 = .ok t ∧ 0x07FF ≠ randomAddr) ∧
      ∃ t, memWrite randomAddr 0x55 (w0.withDraws [0]) = .ok t ∧ ∃ r, memRead randomAddr t = .ok r :=
  ⟨⟨_, rfl, by decide⟩, _, rfl, _, rfl⟩

/-- Both sides of the two bounds. -/
theorem witness_AbsoluteModes :
    (0xFFFE : Word).toNat + (w0.withX 1).x.toNat ≤ 0xFFFF ∧ ¬(0xFFFF : Word).toNat + (w0.withX 1).x.toNat ≤ 0xFFFF ∧
      (0xFFFE : Word).toNat + (w0.withY 1).y.toNat ≤ 0xFFFF ∧
      ¬(0xFFFF : Word).toNat + (w0.withY 1).y.toNat ≤ 0xFFFF := by decide

/-- Targets 0, -1, 0xFFFF and 0x10000. -/
theorem witness_RelativeMode :
    let target := fun (ispc : Nat) (b : Byte) =>
      (ispc : Int) + (if b.toNat < 128 then (b.toNat : Int) else b.toNat - 256)
    target (w0.withIspc 128).ispc 0x80 = 0 ∧ target (w0.withIspc 127).ispc 0x80 = -1 ∧
      target (w0.withIspc 0xFF80).ispc 0x7F = 0xFFFF ∧ target (w0.withIspc 0xFF81).ispc 0x7F = 0x10000 := by decide

theorem witness_PointerModes :
    memRead16 (0x0010 : Word).toNat w0 = .ok (0x0634, w0) ∧ (0x07FF : Word).toNat + 1 = memSize ∧
      memSize ≤ (0x0800 : Word).toNat ∧ 2046 + 1 < memSize ∧ 2046 ≠ randomAddr ∧ 2046 + 1 ≠ randomAddr := by decide

theorem witness_OperandRule :
    resolveAddress (.absolute 0xFFFF .none) w0 = .ok (0xFFFF, w0) ∧
      resolveAddress (.absolute 0xFFFF .x) (w0.withX 1) =
        .error (.addressCalculation ((w0.withX 1).withStatus (.faulted .addressCalculation))) ∧
      readOperand (.address (.zeroPage 0x10 .none)) w0 = .ok (0x34, w0) ∧
      readOperand (.address (.absolute 0x0800 .none)) w0 =
        .error (.outOfBounds 0x0800 (w0.withStatus (.faulted .outOfBounds))) := by decide

/-- An operand that is read, at each end of its range, and one that faults. -/
theorem witness_LoadResults :
    ((Instr.ldaImm 0x00).mode = .operand (.immediate 0x00) ∧ readOperand (.immediate 0x00) w0 = .ok (0x00, w0) ∧
      (Instr.ldaImm 0x00).mnemonic = .lda) ∧
    ((Instr.ldxZp 0x10).mode = .operand (.address (.zeroPage 0x10 .none)) ∧
      readOperand (.address (.zeroPage 0x10 .none)) w0 = .ok (0x34, w0) ∧ (Instr.ldxZp 0x10).mnemonic = .ldx) ∧
    ((Instr.ldyImm 0xFF).mode = .operand (.immediate 0xFF) ∧ readOperand (.immediate 0xFF) w0 = .ok (0xFF, w0) ∧
      (Instr.ldyImm 0xFF).mnemonic = .ldy) ∧
    ((Instr.ldaAbs 0x0800).mode = .operand (.address (.absolute 0x0800 .none)) ∧
      readOperand (.address (.absolute 0x0800 .none)) w0 =
        .error (.outOfBounds 0x0800 (w0.withStatus (.faulted .outOfBounds))) ∧
      (Instr.ldaAbs 0x0800).mnemonic ∈ [.lda, .ldx, .ldy]) := by decide

/-- STA, STX, STY; the last cell, the first address outside, and an address that cannot be computed. -/
theorem witness_StoreResults :
    ((Instr.staAbs 0x07FF).mode = .operand (.address (.absolute 0x07FF .none)) ∧ (Instr.staAbs 0x07FF).mnemonic = .sta ∧
      resolveAddress (.absolute 0x07FF .none) w0 = .ok (0x07FF, w0) ∧ 0x07FF < memSize) ∧
    ((Instr.stxAbs 0x0800).mode = .operand (.address (.absolute 0x0800 .none)) ∧ (Instr.stxAbs 0x0800).mnemonic = .stx ∧
      resolveAddress (.absolute 0x0800 .none) w0 = .ok (0x0800, w0) ∧ memSize ≤ 0x0800) ∧
    ((Instr.styZp 0x00).mode = .operand (.address (.zeroPage 0x00 .none)) ∧ (Instr.styZp 0x00).mnemonic = .sty ∧
      resolveAddress (.zeroPage 0x00 .none) w0 = .ok (0, w0)) ∧
    ((Instr.staAbsX 0xFFFF).mode = .operand (.address (.absolute 0xFFFF .x)) ∧
      resolveAddress (.absolute 0xFFFF .x) (w0.withX 1) =
        .error (.addressCalculation ((w0.withX 1).withStatus (.faulted .addressCalculation)))) := by decide

theorem witness_AdcResult :
    (Instr.adcImm 0xFF).mnemonic = .adc ∧ (Instr.adcImm 0xFF).mode = .operand (.immediate 0xFF) ∧
      readOperand (.immediate 0xFF) w0 = .ok (0xFF, w0) ∧
      (Instr.adcAbs 0x0800).mode = .operand (.address (.absolute 0x0800 .none)) ∧
      readOperand (.address (.absolute 0x0800 .none)) w0 =
        .error (.outOfBounds 0x0800 (w0.withStatus (.faulted .outOfBounds))) := by decide

theorem witness_SbcResult :
    (Instr.sbcImm 0x80).mnemonic = .sbc ∧ (Instr.sbcImm 0x80).mode = .operand (.immediate 0x80) ∧
      readOperand (.immediate 0x80) w0 = .ok (0x80, w0) ∧
      (Instr.sbcAbs 0x0800).mode = .operand (.address (.absolute 0x0800 .none)) ∧
      readOperand (.address (.absolute 0x0800 .none)) w0 =
        .error (.outOfBounds 0x0800 (w0.withStatus (.faulted .outOfBounds))) := by decide

theorem witness_LogicResults :
    let s := w0.withA 0xF0
    readOperand (.immediate 0x3C) s = .ok (0x3C, s) ∧
    ((Instr.andImm 0x3C).mode = .operand (.immediate 0x3C) ∧ (Instr.andImm 0x3C).mnemonic = .and ∧
      ∀ k < 8, (0x30 : Byte).getLsbD k = (s.a.getLsbD k && (0x3C : Byte).getLsbD k)) ∧
    ((Instr.oraImm 0x3C).mode = .operand (.immediate 0x3C) ∧ (Instr.oraImm 0x3C).mnemonic = .ora ∧
      ∀ k < 8, (0xFC : Byte).getLsbD k = (s.a.getLsbD k || (0x3C : Byte).getLsbD k)) ∧
    ((Instr.eorImm 0x3C).mode = .operand (.immediate 0x3C) ∧ (Instr.eorImm 0x3C).mnemonic = .eor ∧
      ∀ k < 8, (0xCC : Byte).getLsbD k = (s.a.getLsbD k ^^ (0x3C : Byte).getLsbD k)) ∧
    readOperand (.address (.absolute 0x0800 .none)) s =
      .error (.outOfBounds 0x0800 (s.withStatus (.faulted .outOfBounds))) := by decide

theorem witness_BitResult :
    (Instr.bitZp 0x10).mnemonic = .bit ∧ (Instr.bitZp 0x10).mode = .operand (.address (.zeroPage 0x10 .none)) ∧
      readOperand (.address (.zeroPage 0x10 .none)) w0 = .ok (0x34, w0) ∧
      (Instr.bitAbs 0x0800).mode = .operand (.address (.absolute 0x0800 .none)) ∧
      readOperand (.address (.absolute 0x0800 .none)) w0 =
        .error (.outOfBounds 0x0800 (w0.withStatus (.faulted .outOfBounds))) := by decide

theorem witness_CompareResults :
    ((Instr.cmpImm 0x00).mode = .operand (.immediate 0x00) ∧ (Instr.cmpImm 0x00).mnemonic = .cmp ∧
      readOperand (.immediate 0x00) w0 = .ok (0x00, w0)) ∧
    ((Instr.cpxImm 0xFF).mode = .operand (.immediate 0xFF) ∧ (Instr.cpxImm 0xFF).mnemonic = .cpx ∧
      readOperand (.immediate 0xFF) w0 = .ok (0xFF, w0)) ∧
    ((Instr.cpyZp 0x10).mode = .operand (.address (.zeroPage 0x10 .none)) ∧ (Instr.cpyZp 0x10).mnemonic = .cpy ∧
      readOperand (.address (.zeroPage 0x10 .none)) w0 = .ok (0x34, w0)) ∧
    ((Instr.cpyAbs 0x0800).mode = .operand (.address (.absolute 0x0800 .none)) ∧
      readOperand (.address (.absolute 0x0800 .none)) w0 =
        .error (.outOfBounds 0x0800 (w0.withStatus (.faulted .outOfBounds)))) := by decide

/-- INC and DEC where the byte wraps; a read out of memory; an address that cannot be computed. -/
theorem witness_IncDecMemory :
    let s := start 0x0600 [] [(0x0020, 0xFF)]
    ((Instr.incZp 0x20).mode = .operand (.address (.zeroPage 0x20 .none)) ∧ (Instr.incZp 0x20).mnemonic = .inc ∧
      (0x00 : Byte).toNat = ((0xFF : Byte).toNat + 1) % 256 ∧
      resolveAddress (.zeroPage 0x20 .none) s = .ok (0x20, s) ∧ memRead 0x20 s = .ok (0xFF, s)) ∧
    ((Instr.decAbs 0x07FF).mode = .operand (.address (.absolute 0x07FF .none)) ∧
      (Instr.decAbs 0x07FF).mnemonic = .dec ∧ (0xFF : Byte).toNat = ((0x00 : Byte).toNat + 255) % 256 ∧
      resolveAddress (.absolute 0x07FF .none) s = .ok (0x07FF, s) ∧ memRead 0x07FF s = .ok (0x00, s)) ∧
    ((Instr.incAbs 0x0800).mode = .operand (.address (.absolute 0x0800 .none)) ∧
      resolveAddress (.absolute 0x0800 .none) s = .ok (0x0800, s) ∧
      memRead 0x0800 s = .error (.outOfBounds 0x0800 (s.withStatus (.faulted .outOfBounds)))) ∧
    ((Instr.incAbsX 0xFFFF).mode = .operand (.address (.absolute 0xFFFF .x)) ∧
      resolveAddress (.absolute 0xFFFF .x) (s.withX 1) =
        .error (.addressCalculation ((s.withX 1).withStatus (.faulted .addressCalculation)))) := by decide

theorem witness_IncDecRegisters :
    (0x00 : Byte).toNat = ((w0.withX 0xFF).x.toNat + 1) % 256 ∧ (0x00 : Byte).toNat = ((w0.withY 0xFF).y.toNat + 1) % 256 ∧
      (0xFF : Byte).toNat = (w0.x.toNat + 255) % 256 ∧ (0xFF : Byte).toNat = (w0.y.toNat + 255) % 256 := by decide

/-- The four operations on 0x81 with the carry set, on A and on a cell; a read out of memory; an address that cannot
be computed. -/
theorem witness_ShiftResults :
    let s := (w0.withA 0x81).withP (flagsFromByte 0x01)
    let u := (start 0x0600 [] [(0x0020, 0x81)]).withP (flagsFromByte 0x01)
    ((Instr.aslAcc.mode = .accumulator ∧ Instr.aslAcc.mnemonic = .asl ∧ (0x02 : Byte).toNat = s.a.toNat * 2 % 256 ∧
        true = decide (128 ≤ s.a.toNat)) ∧
      (Instr.lsrAcc.mode = .accumulator ∧ Instr.lsrAcc.mnemonic = .lsr ∧ (0x40 : Byte).toNat = s.a.toNat / 2 ∧
        true = decide (s.a.toNat % 2 = 1)) ∧
      (Instr.rolAcc.mode = .accumulator ∧ Instr.rolAcc.mnemonic = .rol ∧
        (0x03 : Byte).toNat = s.a.toNat * 2 % 256 + s.p.c.toNat ∧ true = decide (128 ≤ s.a.toNat)) ∧
      (Instr.rorAcc.mode = .accumulator ∧ Instr.rorAcc.mnemonic = .ror ∧
        (0xC0 : Byte).toNat = s.a.toNat / 2 + s.p.c.toNat * 128 ∧ true = decide (s.a.toNat % 2 = 1))) ∧
    ((resolveAddress (.zeroPage 0x20 .none) u = .ok (0x20, u) ∧ memRead 0x20 u = .ok (0x81, u)) ∧
      ((Instr.aslZp 0x20).mode = .operand (.address (.zeroPage 0x20 .none)) ∧ (Instr.aslZp 0x20).mnemonic = .asl ∧
        (0x02 : Byte).toNat = (0x81 : Byte).toNat * 2 % 256 ∧ true = decide (128 ≤ (0x81 : Byte).toNat)) ∧
      ((Instr.lsrZp 0x20).mode = .operand (.address (.zeroPage 0x20 .none)) ∧ (Instr.lsrZp 0x20).mnemonic = .lsr ∧
        (0x40 : Byte).toNat = (0x81 : Byte).toNat / 2 ∧ true = decide ((0x81 : Byte).toNat % 2 = 1)) ∧
      ((Instr.rolZp 0x20).mode = .operand (.address (.zeroPage 0x20 .none)) ∧ (Instr.rolZp 0x20).mnemonic = .rol ∧
        (0x03 : Byte).toNat = (0x81 : Byte).toNat * 2 % 256 + u.p.c.toNat ∧ true = decide (128 ≤ (0x81 : Byte).toNat)) ∧
      ((Instr.rorZp 0x20).mode = .operand (.address (.zeroPage 0x20 .none)) ∧ (Instr.rorZp 0x20).mnemonic = .ror ∧
        (0xC0 : Byte).toNat = (0x81 : Byte).toNat / 2 + u.p.c.toNat * 128 ∧
        true = decide ((0x81 : Byte).toNat % 2 = 1)) ∧
      (resolveAddress (.absolute 0x0800 .none) u = .ok (0x0800, u) ∧
        memRead 0x0800 u = .error (.outOfBounds 0x0800 (u.withStatus (.faulted .outOfBounds)))) ∧
      resolveAddress (.absolute 0xFFFF .x) (u.withX 1) =
        .error (.addressCalculation ((u.withX 1).withStatus (.faulted .addressCalculation)))) := by decide

/-- The flag against and for the branch; targets 0, 2047, -1, 2048, 0xFFFF and 0x10000. -/
theorem witness_BranchResults :
    let target := fun (ispc : Nat) (b : Byte) =>
      (ispc : Int) + (if b.toNat < 128 then (b.toNat : Int) else b.toNat - 256)
    (branchTest (Instr.bne 0x05).mnemonic = some (.z, false) ∧
      (Instr.bne 0x05).mode = .operand (.address (.relative 0x05)) ∧ w0.p.get .z = false ∧
      (w0.withP (flagsFromByte 0x02)).p.get .z ≠ false) ∧
    (branchTest (Instr.bcs 0x80).mnemonic = some (.c, true) ∧
      (Instr.bcs 0x80).mode = .operand (.address (.relative 0x80)) ∧
      (w0.withP (flagsFromByte 0x01)).p.get .c = true) ∧
    (target (w0.withIspc 128).ispc 0x80 = 0 ∧ target (w0.withIspc 1921).ispc 0x7E = 2047 ∧
      target (w0.withIspc 127).ispc 0x80 = -1 ∧ target (w0.withIspc 1921).ispc 0x7F = 2048 ∧
      target (w0.withIspc 0xFF80).ispc 0x7F = 0xFFFF ∧ target (w0.withIspc 0xFF81).ispc 0x7F = 0x10000) := by decide

/-- Targets at both sides of the end of memory, a pointer to each, and the pointers whose high byte, or both bytes,
lie outside. -/
theorem witness_JmpResult :
    let u := start 0x0600 [0xEA] [(0x0010, 0x00), (0x0011, 0x08)]
    (0x07FF : Word).toNat < memSize ∧ memSize ≤ (0x0800 : Word).toNat ∧
      (memRead16 (0x0010 : Word).toNat w0 = .ok (0x0634, w0) ∧ (0x0634 : Word).toNat < memSize) ∧
      (memRead16 (0x0010 : Word).toNat u = .ok (0x0800, u) ∧ memSize ≤ (0x0800 : Word).toNat) ∧
      (0x07FF : Word).toNat + 1 = memSize ∧ memSize ≤ (0x0800 : Word).toNat := by decide

theorem witness_JsrResult :
    (2 ≤ (w0.withSp 0x02).sp.toNat ∧ (0x07FF : Word).toNat < memSize) ∧ memSize ≤ (0x0800 : Word).toNat ∧
      (w0.withSp 0x01).sp = 0x01 ∧ (w0.withSp 0x00).sp = 0x00 := by decide

theorem witness_RtsResult :
    let s := (start 0x0600 [] [(0x01FE, 0xFF), (0x01FF, 0x07)]).withSp 0xFD
    let u := (start 0x0600 [] [(0x01FE, 0x00), (0x01FF, 0x08)]).withSp 0xFD
    let target := fun s : State =>
      (cellAt s.mem (0x100 + s.sp.toNat + 2)).toNat * 256 + (cellAt s.mem (0x100 + s.sp.toNat + 1)).toNat
    (s.sp.toNat ≤ 253 ∧ target s < memSize) ∧ (u.sp.toNat ≤ 253 ∧ memSize ≤ target u) ∧ (w0.withSp 0xFE).sp = 0xFE ∧
      w0.sp = 0xFF := by decide

theorem witness_JsrThenRts : (∃ t, exec (.jsr 0x0700) w0 = .next t) ∧ w0.pc < memSize := ⟨⟨_, rfl⟩, by decide⟩

theorem witness_PushResults : (w0.withSp 0x01).sp ≠ 0x00 ∧ (w0.withSp 0x00).sp = 0x00 := by decide

theorem witness_PullResults : (w0.withSp 0xFE).sp ≠ 0xFF ∧ w0.sp = 0xFF := by decide

theorem witness_Push16ThenPop16 : ∃ t, push16 0x1234 (w0.withSp 0x02) = .ok t := ⟨_, rfl⟩

theorem witness_StackHolds255 :
    w0.sp = 0xFF ∧ (List.replicate 255 (0x11 : Byte)).length ≤ 255 ∧ 255 < (List.replicate 256 (0x11 : Byte)).length :=
  ⟨rfl, Nat.le_of_eq List.length_replicate, by rw [List.length_replicate]; decide⟩

theorem witness_PhpThenPlp : ∃ t, exec .php (w0.withSp 0x01) = .next t := ⟨_, rfl⟩

theorem witness_HaltStep :
    (start 0x07FF [0xFF] []).status = .running ∧
      memRead (start 0x07FF [0xFF] []).pc (start 0x07FF [0xFF] []) = .ok (0xFF, start 0x07FF [0xFF] []) := by decide

/-- A machine for BRK with an empty stack, or one whose stack is nearly full, and two draws to come. -/
def brkStart (sp : Byte) : State := ((start 0x0602 [] []).withSp sp).withDraws [0, 0]

/-- The machine after BRK's three pushes, with I set; whether a pushed byte was on the display is left open. -/
def brkPushed (sp : Byte) (mem : Memory) (dirty : Bool) : State :=
  (((brkStart (sp - 3)).withMem mem).withDirty dirty).withP { Flags.clear with i := true }

/-- The vector read in such a machine, where the cells it reads hold 0x00 or are draws of the value 1. -/
theorem test_brk_vector (v : Word) (sp : Byte) (mem : Memory) (dirty : Bool) (hv : v.toNat + 1 < memSize)
    (h0 : cellAt mem v.toNat = 0) (h1 : cellAt mem (v.toNat + 1) = 0) :
    ∃ t, finish (do
      let t ← memRead16 v.toNat (brkPushed sp mem dirty)
      goto t.1.toNat t.2) = .next t := by
  obtain ⟨w, u, hr, hw⟩ : ∃ w u, memRead16 v.toNat (brkPushed sp mem dirty) = .ok (w, u) ∧ w.toNat < memSize := by
    by_cases hl : v.toNat = randomAddr
    · exact ⟨0x0001, (brkPushed sp mem dirty).withDraws [0], by
        rw [hl] at h1 ⊢
        refine memRead16_ok_iff.mpr ⟨(1, (brkPushed sp mem dirty).withDraws [0]), (0, _), rfl, by decide, ?_,
          Prod.ext (by decide : (1 : Word) = wordOf 0 1) rfl⟩
        rw [memRead_plain _ (by decide) (by decide)]
        exact congrArg (fun b => Except.ok (b, _)) h1, by decide⟩
    · by_cases hh : v.toNat + 1 = randomAddr
      · exact ⟨0x0100, (brkPushed sp mem dirty).withDraws [0], by
          refine memRead16_ok_iff.mpr
            ⟨(0, brkPushed sp mem dirty), (1, _), ?_, by rw [hh]; decide, by rw [hh]; rfl,
              Prod.ext (by decide : (0x0100 : Word) = wordOf 1 0) rfl⟩
          rw [memRead_plain _ (by omega) hl]
          exact congrArg (fun b => Except.ok (b, _)) h0, by decide⟩
      · refine ⟨wordOf (cellAt mem (v.toNat + 1)) (cellAt mem v.toNat), brkPushed sp mem dirty,
          memRead16_plain _ hv hl hh, ?_⟩
        rw [h0, h1]
        decide
  exact ⟨_, finish_next_iff.mpr (bind_ok_iff.mpr ⟨_, hr, goto_ok_iff.mpr ⟨hw, rfl⟩⟩)⟩

/-- BRK completes from some state for every value of the OPEN vector address whose two bytes lie in memory. -/
theorem test_brk_completes (h : Config.irqVector.toNat + 1 < memSize) : ∃ s t, exec .brk s = .next t := by
  by_cases hv : Config.irqVector.toNat < 0x180
  · obtain ⟨t, ht⟩ := test_brk_vector Config.irqVector 0xFF [(0x1FD, 0x10), (0x1FE, 0x02), (0x1FF, 0x06)] _ h
      (by simp only [cellAt]; rw [if_neg, if_neg, if_neg] <;> omega)
      (by simp only [cellAt]; rw [if_neg, if_neg, if_neg] <;> omega)
    exact ⟨brkStart 0xFF, t, ht⟩
  · obtain ⟨t, ht⟩ := test_brk_vector Config.irqVector 0x10 [(0x10E, 0x10), (0x10F, 0x02), (0x110, 0x06)] _ h
      (by simp only [cellAt]; rw [if_neg, if_neg, if_neg] <;> omega)
      (by simp only [cellAt]; rw [if_neg, if_neg, if_neg] <;> omega)
    exact ⟨brkStart 0x10, t, ht⟩

/-- The vector at the candidate address, a vector outside memory, the literal address; and the stack's last three. -/
theorem witness_BrkResult :
    (Config.irqVector = 0x07FE → ∃ t, exec .brk (start 0x0602 [] [(0x07FF, 0x07)]) = .next t) ∧
    (Config.irqVector = 0x07FE → ∃ f, exec .brk (start 0x0602 [] [(0x07FF, 0x08)]) = .fault f) ∧
    (Config.irqVector = 0xFFFE → ∃ f, exec .brk w0 = .fault f) ∧ 3 ≤ (w0.withSp 0x03).sp.toNat ∧
    (w0.withSp 0x02).sp = 0x02 ∧ (w0.withSp 0x01).sp = 0x01 ∧ (w0.withSp 0x00).sp = 0x00 := by
  refine ⟨fun h => ?_, fun h => ?_, fun h => ?_, by decide, by decide, by decide, by decide⟩ <;>
    rw [test_brkAt, h] <;> exact ⟨_, rfl⟩

theorem witness_RtiResult :
    let s := (start 0x0600 [] [(0x01FE, 0xFF), (0x01FF, 0x07)]).withSp 0xFC
    let u := (start 0x0600 [] [(0x01FE, 0x00), (0x01FF, 0x08)]).withSp 0xFC
    let target := fun s : State =>
      (cellAt s.mem (0x100 + s.sp.toNat + 3)).toNat * 256 + (cellAt s.mem (0x100 + s.sp.toNat + 2)).toNat
    (s.sp.toNat ≤ 252 ∧ target s < memSize) ∧ (u.sp.toNat ≤ 252 ∧ memSize ≤ target u) ∧ (w0.withSp 0xFD).sp = 0xFD ∧
      (w0.withSp 0xFE).sp = 0xFE ∧ w0.sp = 0xFF := by decide

theorem witness_BrkThenRti (h : Config.irqVector = 0x07FE) :
    (∃ t, exec .brk (start 0x0602 [] [(0x07FE, 0x40), (0x07FF, 0x06)]) = .next t) ∧
      (start 0x0602 [] [(0x07FE, 0x40), (0x07FF, 0x06)]).pc < memSize := by
  rw [test_brkAt, h]
  exact ⟨⟨_, rfl⟩, by decide⟩

/-- Each stack fault at the first SP that raises it, and an instruction that raises none there. -/
theorem witness_StackFaultsExactly :
    (∃ t, exec .pha (w0.withSp 0x00) = .fault (.stackOverflow t)) ∧
      (∃ t, exec (.jsr 0x0700) (w0.withSp 0x01) = .fault (.stackOverflow t)) ∧
      (∃ t, exec .brk (w0.withSp 0x02) = .fault (.stackOverflow t)) ∧
      (∃ t, exec .plp (w0.withSp 0xFF) = .fault (.stackUnderflow t)) ∧
      (∃ t, exec .rts (w0.withSp 0xFE) = .fault (.stackUnderflow t)) ∧
      (∃ t, exec .rti (w0.withSp 0xFD) = .fault (.stackUnderflow t)) ∧ ∃ t, exec .nop (w0.withSp 0x00) = .next t :=
  ⟨⟨_, rfl⟩, ⟨_, rfl⟩, ⟨_, rfl⟩, ⟨_, rfl⟩, ⟨_, rfl⟩, ⟨_, rfl⟩, _, rfl⟩

theorem witness_FlagFrame :
    (∃ t, exec .inx w0 = .next t) ∧ FlagName.c ∉ flagsWritten Instr.inx.mnemonic := ⟨⟨_, rfl⟩, by decide⟩

theorem witness_RegisterFrame :
    (∃ t, exec (.ldaImm 0x01) w0 = .next t ∧ t.a ≠ w0.a) ∧ (∃ t, exec .aslAcc (w0.withA 1) = .next t ∧ t.a ≠ 1) ∧
      (∃ t, exec .dex w0 = .next t ∧ t.x ≠ w0.x) ∧ (∃ t, exec .dey w0 = .next t ∧ t.y ≠ w0.y) ∧
      ∃ t, exec .pha w0 = .next t ∧ t.sp ≠ w0.sp :=
  ⟨⟨_, rfl, by decide⟩, ⟨_, rfl, by decide⟩, ⟨_, rfl, by decide⟩, ⟨_, rfl, by decide⟩, _, rfl, by decide⟩

/-- A form that stores nothing, one that stores at a resolved address, a push and a call; the bytes beside those. -/
theorem witness_MemoryFrame :
    ((∃ t, exec .nop w0 = .next t) ∧ Instr.nop.mnemonic.pushes = false ∧
      ∀ m, Instr.nop.mode = .operand (.address m) → Instr.nop.mnemonic.stores = false ∧
        Instr.nop.mnemonic.modifies = false) ∧
    ((∃ t, exec (.staZp 0x10) w0 = .next t) ∧ (Instr.staZp 0x10).mnemonic.stores = true ∧
      (Instr.staZp 0x10).mode = .operand (.address (.zeroPage 0x10 .none)) ∧
      resolveAddress (.zeroPage 0x10 .none) w0 = .ok (0x10, w0) ∧ (0x11 : Nat) ≠ 0x10) ∧
    ((∃ t, exec .pha w0 = .next t) ∧ Instr.pha.mnemonic ∈ [.pha, .php] ∧ 0x1FE ≠ 0x100 + w0.sp.toNat) ∧
    ((∃ t, exec (.jsr 0x0700) w0 = .next t) ∧ (Instr.jsr 0x0700).mnemonic = .jsr ∧ 0x1FD + 1 < 0x100 + w0.sp.toNat ∧
      0x100 + w0.sp.toNat < 0x200) ∧
    (Instr.brk.mnemonic = .brk ∧ 0x1FC + 2 < 0x100 + w0.sp.toNat) :=
  ⟨⟨⟨_, rfl⟩, rfl, fun _ h => by cases h⟩, ⟨⟨_, rfl⟩, rfl, rfl, rfl, by decide⟩, ⟨⟨_, rfl⟩, by decide, by decide⟩,
    ⟨⟨_, rfl⟩, rfl, by decide, by decide⟩, rfl, by decide⟩

theorem witness_SequencerFrame : (∃ t, exec .halt w0 = .next t) ∧ ∃ t, exec (.ldaZp 0xFE) w0 = .next t :=
  ⟨⟨_, rfl⟩, _, rfl⟩

/-- HALT, an instruction that always goes, a branch taken and not taken, and one that advances. -/
theorem witness_CommitRule :
    ((∃ t, exec .halt w0 = .next t) ∧ Instr.halt.mnemonic = .halt) ∧
    ((∃ t, exec (.jmpAbs 0x0700) w0 = .next t) ∧ (Instr.jmpAbs 0x0700).mnemonic.alwaysGoes = true) ∧
    ((∃ t, exec (.bne 0x05) w0 = .next t) ∧ branchTest (Instr.bne 0x05).mnemonic = some (.z, false) ∧
      w0.p.get .z = false) ∧
    ((∃ t, exec (.beq 0x05) w0 = .next t) ∧ branchTest (Instr.beq 0x05).mnemonic = some (.z, true) ∧
      w0.p.get .z ≠ true) ∧
    ((∃ t, exec .nop w0 = .next t) ∧ Instr.nop.mnemonic ≠ .halt ∧ Instr.nop.mnemonic.alwaysGoes = false ∧
      branchTest Instr.nop.mnemonic = none) :=
  ⟨⟨⟨_, rfl⟩, rfl⟩, ⟨⟨_, rfl⟩, rfl⟩, ⟨⟨_, rfl⟩, rfl, rfl⟩, ⟨⟨_, rfl⟩, rfl, by decide⟩, ⟨_, rfl⟩, by decide, rfl, rfl⟩

theorem witness_OperandFaultChangesNothing :
    ((Instr.ldaAbs 0x0800).mnemonic.readsOperand = true ∧ ∃ f, exec (.ldaAbs 0x0800) w0 = .fault f) ∧
      ((Instr.staAbs 0x0800).mnemonic.stores = true ∧ ∃ f, exec (.staAbs 0x0800) w0 = .fault f) ∧
      ((Instr.incAbs 0xFFFF).mnemonic.modifies = true ∧ ∃ f, exec (.incAbs 0xFFFF) w0 = .fault f) :=
  ⟨⟨rfl, _, rfl⟩, ⟨rfl, _, rfl⟩, rfl, _, rfl⟩

theorem witness_FormsThatNeverFault :
    (Instr.tax.mode = .implied ∧ Instr.tax.mnemonic.pushes = false ∧ Instr.tax.mnemonic.pops = false) ∧
      Instr.rolAcc.mode = .accumulator ∧ (Instr.adcImm 0xFF).mode = .operand (.immediate 0xFF) ∧
      (Instr.incZpX 0xFF).mode = .operand (.address (.zeroPage 0xFF .x)) := by decide

theorem witness_DecimalAndInterruptDisableAreInert :
    (Instr.adcImm 0x09).mnemonic ∉ [.php, .brk, .plp, .rti, .sed, .cld, .sei, .cli] ∧
      ∃ t, exec (.adcImm 0x09) w0 = .next t := ⟨by decide, _, rfl⟩

end Sys2Proof.Tests
end

namespace Sys2Proof.Machine

/-! How reading an operand follows from resolving its address (40 R151), for success and for a fault. -/

theorem readOperand_of_resolveAddress_ok {m : AddrMode} {s s1 : State} {a : Nat}
    (h : resolveAddress m s = .ok (a, s1)) : readOperand (.address m) s = memRead a s1 := by
  rw [readOperand_address, h]
  rfl

theorem readOperand_of_resolveAddress_error {m : AddrMode} {s : State} {f : Fault}
    (h : resolveAddress m s = .error f) : readOperand (.address m) s = .error f := by
  rw [readOperand_address]
  exact bind_error_iff.mpr (.inl h)

/-- Settles O24: the resolver and the read each keep all but the draws, and their faults are operand faults, whose
machine differs from the one before in the draws and the status only. -/
theorem operandRule : Obligations.OperandRule := by
  refine ⟨readOperand_immediate, ?resolved, ?unresolved, ?read, ?readFault⟩
  case resolved =>
    intro m s a s1 h
    exact ⟨readOperand_of_resolveAddress_ok h, resolveAddress_same h⟩
  case unresolved =>
    intro m s f h
    exact ⟨readOperand_of_resolveAddress_error h, (resolveAddress_error h).same⟩
  case read =>
    intro m s v s1 h
    exact readOperand_same h
  case readFault =>
    intro m s f h
    exact (readOperand_error h).same

end Sys2Proof.Machine

section
namespace Sys2Proof.Machine

open Sys2Proof

/-! # What each operation answers

One lemma for each case of an operation, with the state it answers given a name and that name its own field lemmas. -/

/-! ## Chaining -/

theorem bind_of_ok {α β : Type} {x : Except Fault α} {a : α} {f : α → Except Fault β} (h : x = .ok a) :
    (x >>= f) = f a := by
  rw [h]; rfl

theorem bind_of_error {α β : Type} {x : Except Fault α} {e : Fault} {f : α → Except Fault β} (h : x = .error e) :
    (x >>= f) = .error e := by
  rw [h]; rfl

/-! ## Reads -/

/-- A state that differs in the draws alone, in the form the field lemmas of the updates speak of. -/
theorem SameButDraws.exists_eq {s t : State} (h : SameButDraws s t) :
    ∃ ds n, t = (s.withDraws ds).withDrawCount n :=
  ⟨t.draws, t.drawCount, h⟩

/-! ## Counters -/

/-- Both counters at one address: the state `Goto` answers (10 R37). -/
def wentTo (a : Nat) (s : State) : State := (s.withPc a).withIspc a

theorem goto_ok (a : Nat) (s : State) (h : a < memSize) : goto a s = .ok (wentTo a s) :=
  goto_ok_iff.mpr ⟨h, rfl⟩

theorem goto_invalidTarget (a : Nat) (s : State) (h : memSize ≤ a) :
    goto a s = .error (.invalidTarget a (s.withStatus (.faulted .invalidTarget))) :=
  goto_error_iff.mpr ⟨h, rfl⟩

theorem jumpTo_ok {m : AddrMode} {s t : State} (h : jumpTo m s = .ok t) :
    ∃ a s1, SameButDraws s s1 ∧ a < memSize ∧ t = wentTo a s1 := by
  obtain ⟨⟨a, s1⟩, ha, h⟩ := bind_ok_iff.mp h
  obtain ⟨hlt, rfl⟩ := goto_ok_iff.mp h
  exact ⟨a, s1, resolveAddress_same ha, hlt, rfl⟩

@[simp] theorem wentTo_a (a : Nat) (s : State) : (wentTo a s).a = s.a := rfl
@[simp] theorem wentTo_x (a : Nat) (s : State) : (wentTo a s).x = s.x := rfl
@[simp] theorem wentTo_y (a : Nat) (s : State) : (wentTo a s).y = s.y := rfl
@[simp] theorem wentTo_sp (a : Nat) (s : State) : (wentTo a s).sp = s.sp := rfl
@[simp] theorem wentTo_pc (a : Nat) (s : State) : (wentTo a s).pc = a := rfl
@[simp] theorem wentTo_ispc (a : Nat) (s : State) : (wentTo a s).ispc = a := rfl
@[simp] theorem wentTo_p (a : Nat) (s : State) : (wentTo a s).p = s.p := rfl
@[simp] theorem wentTo_mem (a : Nat) (s : State) : (wentTo a s).mem = s.mem := rfl
@[simp] theorem wentTo_dirty (a : Nat) (s : State) : (wentTo a s).dirty = s.dirty := rfl

@[simp] theorem advance_a (s : State) : (advance s).a = s.a := rfl
@[simp] theorem advance_x (s : State) : (advance s).x = s.x := rfl
@[simp] theorem advance_y (s : State) : (advance s).y = s.y := rfl
@[simp] theorem advance_sp (s : State) : (advance s).sp = s.sp := rfl
@[simp] theorem advance_pc (s : State) : (advance s).pc = s.pc := rfl
@[simp] theorem advance_ispc (s : State) : (advance s).ispc = s.pc := rfl
@[simp] theorem advance_p (s : State) : (advance s).p = s.p := rfl
@[simp] theorem advance_mem (s : State) : (advance s).mem = s.mem := rfl
@[simp] theorem advance_dirty (s : State) : (advance s).dirty = s.dirty := rfl

@[simp] theorem storeCell_dirty (a : Nat) (v : Byte) (s : State) :
    (storeCell a v s).dirty = (s.dirty || (inDisplay a && cellAt s.mem a != v)) := rfl

/-! ## Pushes -/

/-- A slot below the one SP names. -/
theorem stackAddr_sub {slot k : Byte} (h : k ≤ slot) : stackAddr (slot - k) = 0x100 + slot.toNat - k.toNat := by
  unfold stackAddr stackBase
  bv_omega

/-- A slot above the one SP names. -/
theorem stackAddr_add {slot k : Byte} (h : slot.toNat + k.toNat < 256) :
    stackAddr (slot + k) = 0x100 + slot.toNat + k.toNat := by
  unfold stackAddr stackBase
  bv_omega

/-- The state after a push that succeeds (10 R44). -/
def afterPush (v : Byte) (s : State) : State := (storeCell (stackAddr s.sp) v s).withSp (s.sp - 1)

@[simp] theorem afterPush_a (v : Byte) (s : State) : (afterPush v s).a = s.a := rfl
@[simp] theorem afterPush_x (v : Byte) (s : State) : (afterPush v s).x = s.x := rfl
@[simp] theorem afterPush_y (v : Byte) (s : State) : (afterPush v s).y = s.y := rfl
@[simp] theorem afterPush_sp (v : Byte) (s : State) : (afterPush v s).sp = s.sp - 1 := rfl
@[simp] theorem afterPush_pc (v : Byte) (s : State) : (afterPush v s).pc = s.pc := rfl
@[simp] theorem afterPush_p (v : Byte) (s : State) : (afterPush v s).p = s.p := rfl
@[simp] theorem afterPush_mem (v : Byte) (s : State) : (afterPush v s).mem = setCell s.mem (stackAddr s.sp) v := rfl

theorem push8_ok (v : Byte) (s : State) (h : s.sp ≠ 0x00) : push8 v s = .ok (afterPush v s) :=
  push8_ok_iff.mpr ⟨h, rfl⟩

theorem push8_overflow (v : Byte) (s : State) (h : s.sp = 0x00) :
    push8 v s = .error (.stackOverflow (s.withStatus (.faulted .stackOverflow))) :=
  push8_error_iff.mpr ⟨h, rfl⟩

/-- The state after a 16-bit push that succeeds: high byte first (10 R46). -/
def afterPush16 (w : Word) (s : State) : State := afterPush (loByte w) (afterPush (hiByte w) s)

@[simp] theorem afterPush16_a (w : Word) (s : State) : (afterPush16 w s).a = s.a := by
  simp only [afterPush16, afterPush_a]
@[simp] theorem afterPush16_x (w : Word) (s : State) : (afterPush16 w s).x = s.x := by
  simp only [afterPush16, afterPush_x]
@[simp] theorem afterPush16_y (w : Word) (s : State) : (afterPush16 w s).y = s.y := by
  simp only [afterPush16, afterPush_y]
@[simp] theorem afterPush16_sp (w : Word) (s : State) : (afterPush16 w s).sp = s.sp - 2 := by
  simp only [afterPush16, afterPush_sp]
  bv_omega
@[simp] theorem afterPush16_p (w : Word) (s : State) : (afterPush16 w s).p = s.p := by
  simp only [afterPush16, afterPush_p]

theorem afterPush_dirty {v : Byte} {s : State} (h : s.dirty = true) : (afterPush v s).dirty = true := by
  simp [afterPush, h]

theorem afterPush16_dirty {w : Word} {s : State} (h : s.dirty = true) : (afterPush16 w s).dirty = true :=
  afterPush_dirty (afterPush_dirty h)

theorem cellAt_afterPush_other {v : Byte} {s : State} {b : Nat} (hb : b ≠ stackAddr s.sp) :
    cellAt (afterPush v s).mem b = cellAt s.mem b :=
  cellAt_setCell_other _ _ hb

/-- A 16-bit push leaves all cells but the slot SP names and the one below. -/
theorem cellAt_afterPush16_other {w : Word} {s : State} {b : Nat} (hsp : 1 ≤ s.sp)
    (hb : b + 1 < 0x100 + s.sp.toNat ∨ 0x100 + s.sp.toNat < b) :
    cellAt (afterPush16 w s).mem b = cellAt s.mem b := by
  have h0 : stackAddr s.sp = 0x100 + s.sp.toNat := rfl
  have h1 : stackAddr (s.sp - 1) = 0x100 + s.sp.toNat - 1 := stackAddr_sub hsp
  unfold afterPush16
  rw [cellAt_afterPush_other (by rw [afterPush_sp]; omega), cellAt_afterPush_other (by omega)]

theorem push16_ok (w : Word) (s : State) (h : 2 ≤ s.sp.toNat) : push16 w s = .ok (afterPush16 w s) :=
  push16_ok_iff.mpr ⟨by bv_omega, by bv_omega, rfl⟩

theorem push16_overflow_second (w : Word) (s : State) (h : s.sp = 0x01) :
    push16 w s = .error (.stackOverflow ((afterPush (hiByte w) s).withStatus (.faulted .stackOverflow))) :=
  push16_error_iff.mpr (.inr ⟨h, rfl⟩)

theorem push16_overflow_first (w : Word) (s : State) (h : s.sp = 0x00) :
    push16 w s = .error (.stackOverflow (s.withStatus (.faulted .stackOverflow))) :=
  push16_error_iff.mpr (.inl ⟨h, rfl⟩)

theorem hiByte_pcWord (s : State) : hiByte (pcWord s) = BitVec.ofNat 8 (s.pc / 256) := by
  apply BitVec.eq_of_toNat_eq
  rw [hiByte_toNat, pcWord, BitVec.toNat_ofNat, BitVec.toNat_ofNat]
  omega

theorem loByte_pcWord (s : State) : loByte (pcWord s) = BitVec.ofNat 8 s.pc := by
  apply BitVec.eq_of_toNat_eq
  rw [loByte_toNat, pcWord, BitVec.toNat_ofNat, BitVec.toNat_ofNat]
  omega

/-- The state after JSR's two pushes, in the words of 44 R220. -/
theorem afterPush16_pcWord (s : State) (h : 2 ≤ s.sp.toNat) :
    afterPush16 (pcWord s) s =
      (storeCell (0x100 + s.sp.toNat - 1) (BitVec.ofNat 8 s.pc)
        ((storeCell (0x100 + s.sp.toNat) (BitVec.ofNat 8 (s.pc / 256)) s).withSp (s.sp - 1))).withSp (s.sp - 2) := by
  have hslot : stackAddr (s.sp - 1) = 0x100 + s.sp.toNat - 1 := stackAddr_sub (by bv_omega)
  have hsp : s.sp - 1 - 1 = s.sp - 2 := by bv_omega
  unfold afterPush16
  rw [hiByte_pcWord, loByte_pcWord]
  unfold afterPush
  rw [State.withSp_sp, hslot, hsp]
  rfl

/-! ## Pops -/

theorem pop8_ok (s : State) (h : s.sp ≠ 0xFF) :
    pop8 s = .ok (cellAt s.mem (0x100 + s.sp.toNat + 1), s.withSp (s.sp + 1)) := by
  refine pop8_ok_iff.mpr ⟨h, ?_⟩
  rw [stackAddr_add (by simp; bv_omega)]
  rfl

theorem pop8_underflow (s : State) (h : s.sp = 0xFF) :
    pop8 s = .error (.stackUnderflow (s.withStatus (.faulted .stackUnderflow))) :=
  pop8_error_iff.mpr ⟨h, rfl⟩

theorem popFlags_ok (s : State) (h : s.sp ≠ 0xFF) :
    popFlags s = .ok ((s.withSp (s.sp + 1)).withP (flagsFromByte (cellAt s.mem (0x100 + s.sp.toNat + 1)))) := by
  unfold popFlags
  rw [bind_of_ok (pop8_ok s h), flagsFromByte_mask]

theorem popFlags_underflow (s : State) (h : s.sp = 0xFF) :
    popFlags s = .error (.stackUnderflow (s.withStatus (.faulted .stackUnderflow))) :=
  popFlags_error_iff.mpr ⟨h, rfl⟩

/-- A 16-bit pop in the words of 10 R47: the low byte is the first one above SP. -/
theorem pop16_ok (s : State) (h : s.sp.toNat ≤ 253) :
    pop16 s = .ok (wordOf (cellAt s.mem (0x100 + s.sp.toNat + 2)) (cellAt s.mem (0x100 + s.sp.toNat + 1)),
      s.withSp (s.sp + 2)) := by
  have hsp : s.sp + 1 + 1 = s.sp + 2 := by bv_omega
  refine pop16_ok_iff.mpr ⟨by bv_omega, by bv_omega, ?_⟩
  rw [hsp, stackAddr_add (by simp; omega), stackAddr_add (by simp; omega)]
  rfl

theorem pop16_underflow_second (s : State) (h : s.sp = 0xFE) :
    pop16 s = .error (.stackUnderflow ((s.withSp 0xFF).withStatus (.faulted .stackUnderflow))) :=
  pop16_error_iff.mpr (.inr ⟨h, by rw [h]; rfl⟩)

theorem pop16_underflow_first (s : State) (h : s.sp = 0xFF) :
    pop16 s = .error (.stackUnderflow (s.withStatus (.faulted .stackUnderflow))) :=
  pop16_error_iff.mpr (.inl ⟨h, rfl⟩)

/-! ## The software interrupt and the return from it -/

/-- The state BRK reads its vector in: PC and the flag byte pushed, INTERRUPT_DISABLE set (45 R249). -/
def interruptEntered (s : State) : State :=
  (afterPush (flagsByte s.p ||| brkOverride) (afterPush16 (pcWord s) s)).withP { s.p with i := true }

@[simp] theorem interruptEntered_a (s : State) : (interruptEntered s).a = s.a := by
  simp only [interruptEntered, State.withP_a, afterPush_a, afterPush16_a]
@[simp] theorem interruptEntered_x (s : State) : (interruptEntered s).x = s.x := by
  simp only [interruptEntered, State.withP_x, afterPush_x, afterPush16_x]
@[simp] theorem interruptEntered_y (s : State) : (interruptEntered s).y = s.y := by
  simp only [interruptEntered, State.withP_y, afterPush_y, afterPush16_y]
@[simp] theorem interruptEntered_p (s : State) : (interruptEntered s).p = { s.p with i := true } := rfl

theorem interruptEntered_dirty {s : State} (h : s.dirty = true) : (interruptEntered s).dirty = true :=
  afterPush_dirty (afterPush16_dirty h)

/-- Entering the interrupt leaves all cells but the slot SP names and the two below. -/
theorem cellAt_interruptEntered_other {s : State} {b : Nat} (hsp : 2 ≤ s.sp)
    (hb : b + 2 < 0x100 + s.sp.toNat ∨ 0x100 + s.sp.toNat < b) :
    cellAt (interruptEntered s).mem b = cellAt s.mem b := by
  have h2 : stackAddr (s.sp - 2) = 0x100 + s.sp.toNat - 2 := stackAddr_sub hsp
  unfold interruptEntered
  rw [State.withP_mem, cellAt_afterPush_other (by rw [afterPush16_sp]; omega),
    cellAt_afterPush16_other (by bv_omega) (by omega)]

theorem takeInterrupt_ok {s t : State} (h : takeInterrupt s = .ok t) :
    3 ≤ s.sp.toNat ∧ ∃ a s1, SameButDraws (interruptEntered s) s1 ∧ a < memSize ∧ t = wentTo a s1 := by
  obtain ⟨u, hu, h⟩ := bind_ok_iff.mp h
  obtain ⟨hsp, hsp', rfl⟩ := push16_ok_iff.mp hu
  obtain ⟨v, hv, h⟩ := bind_ok_iff.mp h
  obtain ⟨hsp'', rfl⟩ := push8_ok_iff.mp hv
  obtain ⟨⟨a, s1⟩, ha, h⟩ := bind_ok_iff.mp h
  obtain ⟨hlt, rfl⟩ := goto_ok_iff.mp h
  have hsp'' : s.sp - 1 - 1 ≠ 0x00 := hsp''
  exact ⟨by bv_omega, a.toNat, s1, memRead16_same ha, hlt, rfl⟩

theorem returnFromInterrupt_ok {s t : State} (h : returnFromInterrupt s = .ok t) :
    ∃ a p sp, a < memSize ∧ t = wentTo a ((s.withP p).withSp sp) := by
  obtain ⟨u, hu, h⟩ := bind_ok_iff.mp h
  obtain ⟨_, rfl⟩ := popFlags_ok_iff.mp hu
  obtain ⟨r, hr, h⟩ := bind_ok_iff.mp h
  obtain ⟨_, _, rfl⟩ := pop16_ok_iff.mp hr
  obtain ⟨hlt, rfl⟩ := goto_ok_iff.mp h
  exact ⟨_, _, _, hlt, rfl⟩

/-! # The stack instructions -/

/-! ## 16-bit pushes and pops -/

/-- Settles O43: the two slots that were written are read back, the low byte first. -/
theorem push16ThenPop16 : Obligations.Push16ThenPop16 := by
  intro s t w h
  obtain ⟨hsp, hsp', rfl⟩ := push16_ok_iff.mp h
  have hback : s.sp - 1 - 1 + 1 = s.sp - 1 := by bv_omega
  have hback' : s.sp - 1 + 1 = s.sp := by bv_omega
  have hne : stackAddr s.sp ≠ stackAddr (s.sp - 1) := fun he => by
    have := stackAddr_inj.mp he
    bv_omega
  refine pop16_ok_iff.mpr ⟨?_, ?_, ?_⟩
  · rw [State.withSp_sp]
    bv_omega
  · rw [State.withSp_sp]
    bv_omega
  · rw [State.withSp_sp, hback, hback', State.withSp_mem, storeCell_mem, cellAt_setCell_same,
      cellAt_setCell_other _ _ hne, State.withSp_mem, storeCell_mem, cellAt_setCell_same, wordOf_hi_lo]

theorem exec_jsr (w : Word) (s : State) :
    exec (.jsr w) s = finish (push16 (pcWord s) s >>= goto w.toNat) := rfl

theorem exec_rts (s : State) : exec .rts s = finish (pop16 s >>= fun t => goto t.1.toNat t.2) := rfl

/-- Settles O38: the two pushes succeed, or the second or the first one overflows; then the target is in memory or
not. -/
theorem jsrResult : Obligations.JsrResult := by
  intro s w hi lo s1 s2
  refine ⟨fun hsp hw => ?_, fun hsp hw => ?_, fun hsp => ?_, fun hsp => ?_⟩ <;> rw [exec_jsr]
  · rw [bind_of_ok (push16_ok _ s hsp), afterPush16_pcWord s hsp, goto_ok _ _ hw]
    rfl
  · rw [bind_of_ok (push16_ok _ s hsp), afterPush16_pcWord s hsp, goto_invalidTarget _ _ hw]
    rfl
  · rw [bind_of_error (push16_overflow_second _ s hsp), hiByte_pcWord]
    rfl
  · rw [bind_of_error (push16_overflow_first _ s hsp)]
    rfl

/-- Settles O39: both pops succeed, or the second or the first one underflows; then the popped target is in memory or
not. -/
theorem rtsResult : Obligations.RtsResult := by
  intro s lo hi t s2
  refine ⟨fun hsp ht => ?_, fun hsp ht => ?_, fun hsp => ?_, fun hsp => ?_⟩ <;> rw [exec_rts]
  · rw [bind_of_ok (pop16_ok s hsp), wordOf_toNat, goto_ok _ _ ht]
    rfl
  · rw [bind_of_ok (pop16_ok s hsp), wordOf_toNat, goto_invalidTarget _ _ ht]
    rfl
  · rw [bind_of_error (pop16_underflow_second s hsp)]
    rfl
  · rw [bind_of_error (pop16_underflow_first s hsp)]
    rfl

/-! ## Single pushes and pops -/

theorem exec_pha (s : State) : exec .pha s = finish (push8 s.a s >>= fun u => .ok (advance u)) := rfl

theorem exec_php (s : State) :
    exec .php s = finish (push8 (flagsByte s.p ||| phpOverride) s >>= fun u => .ok (advance u)) := rfl

theorem exec_pla (s : State) : exec .pla s = finish (pop8 s >>= fun r => .ok (advance (setA r.1 r.2))) := rfl

theorem exec_plp (s : State) : exec .plp s = finish (popFlags s >>= fun u => .ok (advance u)) := rfl

/-- The flag byte that PHP pushes, as a sum of the flags' weights (10 R48, decisions D6 and D7). -/
theorem flagsByte_or_phpOverride (p : Flags) :
    flagsByte p ||| phpOverride =
      BitVec.ofNat 8 ((if p.n then 128 else 0) + (if p.v then 64 else 0) + 16 + (if p.d then 8 else 0) +
        (if p.i then 4 else 0) + (if p.z then 2 else 0) + (if p.c then 1 else 0)) := by
  obtain ⟨c, z, i, d, b, v, n⟩ := p
  revert c z i d b v n
  decide

/-- Settles O41: one push, of A or of the flag byte with its override, which succeeds where SP is not 0. -/
theorem pushResults : Obligations.PushResults := by
  intro s f pushed
  refine ⟨fun hsp => ⟨?_, ?_⟩, fun hsp => ⟨?_, ?_⟩⟩
  · rw [exec_pha, bind_of_ok (push8_ok _ s hsp)]
    rfl
  · rw [exec_php, bind_of_ok (push8_ok _ s hsp), flagsByte_or_phpOverride]
    rfl
  · rw [exec_pha, bind_of_error (push8_overflow _ s hsp)]
    rfl
  · rw [exec_php, bind_of_error (push8_overflow _ s hsp)]
    rfl

/-- Settles O42: one pop, to A or to the flags bit by bit, which succeeds where SP is not 0xFF. -/
theorem pullResults : Obligations.PullResults := by
  intro s v bit
  have hbit : ∀ k, v.getLsbD k = bit k := fun _ => Nat.testBit_eq_decide_div_mod_eq
  refine ⟨fun hsp => ⟨?_, ?_⟩, fun hsp => ⟨?_, ?_⟩⟩
  · rw [exec_pla, bind_of_ok (pop8_ok s hsp), ← hbit]
    rfl
  · rw [exec_plp, bind_of_ok (popFlags_ok s hsp)]
    simp only [← hbit]
    rfl
  · rw [exec_pla, bind_of_error (pop8_underflow s hsp)]
    rfl
  · rw [exec_plp, bind_of_error (popFlags_underflow s hsp)]
    rfl

/-! ## Many pushes -/

/-- The bytes pushed one after the other. -/
def pushAll (bytes : List Byte) (s : State) : Except Fault State := bytes.foldlM (fun s v => push8 v s) s

theorem pushAll_cons (v : Byte) (bytes : List Byte) (s : State) :
    pushAll (v :: bytes) s = (push8 v s >>= pushAll bytes) :=
  List.foldlM_cons

theorem afterPush_sp_toNat (v : Byte) (s : State) (h : s.sp ≠ 0x00) : (afterPush v s).sp.toNat + 1 = s.sp.toNat := by
  rw [afterPush_sp]
  bv_omega

/-- As many pushes as SP allows succeed, and the slot with number 0 is none of theirs. -/
theorem pushAll_fits (bytes : List Byte) (s : State) (h : bytes.length ≤ s.sp.toNat) :
    ∃ t, pushAll bytes s = .ok t ∧ t.sp.toNat = s.sp.toNat - bytes.length ∧
      cellAt t.mem 0x100 = cellAt s.mem 0x100 := by
  induction bytes generalizing s with
  | nil => exact ⟨s, rfl, rfl, rfl⟩
  | cons v bytes ih =>
    rw [List.length_cons] at h ⊢
    have hsp : s.sp ≠ 0x00 := by bv_omega
    have hsp' := afterPush_sp_toNat v s hsp
    obtain ⟨t, ht, htsp, htmem⟩ := ih (afterPush v s) (by omega)
    have hslot : 0x100 ≠ stackAddr s.sp := by
      unfold stackAddr stackBase
      bv_omega
    refine ⟨t, ?_, by omega, ?_⟩
    · rw [pushAll_cons, bind_of_ok (push8_ok v s hsp), ht]
    · rw [htmem, cellAt_afterPush_other hslot]

theorem pushAll_overflows (bytes : List Byte) (s : State) (h : s.sp.toNat < bytes.length) :
    ∃ t, pushAll bytes s = .error (.stackOverflow t) := by
  induction bytes generalizing s with
  | nil => simp at h
  | cons v bytes ih =>
    rw [pushAll_cons]
    by_cases hsp : s.sp = 0x00
    · exact ⟨_, bind_of_error (push8_overflow v s hsp)⟩
    · rw [bind_of_ok (push8_ok v s hsp)]
      rw [List.length_cons] at h
      have hsp' := afterPush_sp_toNat v s hsp
      exact ih _ (by omega)

/-- Settles O44: the case SP = 255 of the induction over the list. -/
theorem stackHolds255 : Obligations.StackHolds255 := by
  intro s bytes hsp
  have hsp : s.sp.toNat = 255 := by rw [hsp]; rfl
  refine ⟨fun hle => ?_, fun hlt => pushAll_overflows bytes s (by omega)⟩
  have h := pushAll_fits bytes s (by omega)
  rwa [hsp] at h

/-! # Reset and the end of the stream -/

theorem cellAt_nil (a : Nat) : cellAt [] a = 0x00 := rfl

theorem clear_get (f : FlagName) : Flags.clear.get f = false := by
  cases f <;> rfl

/-- Settles O13: reset and power-on list no cell and set no flag, and at either end of the stack one more step over it
faults. -/
theorem resetValues : Obligations.ResetValues := by
  refine ⟨fun s => ?_, ?_, rfl⟩
  · exact ⟨rfl, rfl, rfl, rfl, rfl, rfl, clear_get, cellAt_nil, cellAt_nil, rfl, rfl, rfl,
      fun v => push8_overflow v _ rfl⟩
  · exact ⟨rfl, rfl, rfl, rfl, rfl, rfl, clear_get, cellAt_nil, cellAt_nil, rfl, rfl, rfl, pop8_underflow _ rfl⟩

/-- Settles O12: no cell is listed, and both counters are 0. -/
theorem resetHasInv : Obligations.ResetHasInv :=
  ⟨⟨reset_mem_wf, wf_nil displaySize, Nat.zero_le _, rfl⟩,
    ⟨wf_nil memSize, wf_nil displaySize, Nat.zero_le _, rfl⟩⟩

/-- Past the end of memory the decoder finds no byte and changes nothing (30 R119). -/
theorem fetch_endOfStream (s : State) (h : memSize ≤ s.pc) : fetch s = .ok (none, s) :=
  if_pos h

/-- Settles O6: the decoder answers no instruction there, and `Goto` checks its target. -/
theorem endOfStreamEnds : Obligations.EndOfStreamEnds := by
  refine ⟨fun s hrun hpc => ?_, fun s => ⟨_, goto_invalidTarget memSize s (Nat.le_refl _)⟩⟩
  unfold step
  rw [hrun]
  dsimp only
  rw [fetch_endOfStream s hpc]

/-! # What an instruction can do: one case per way `exec` answers a next state -/

/-- The next states of an instruction, with what is true of the instruction and of the state in each case. -/
inductive Effect (i : Instr) (s : State) : State → Prop
  | read (v : Byte) (s1 : State) (h : i.mnemonic.readsOperand = true) (hs : SameButDraws s s1) :
      Effect i s (advance (readMeaning i.mnemonic v s1))
  | store (m : AddrMode) (a : Nat) (s1 : State) (h : i.mnemonic.stores = true)
      (hm : i.mode = .operand (.address m)) (ha : resolveAddress m s = .ok (a, s1)) (hs : SameButDraws s s1) :
      Effect i s (advance (storeCell a (storedByte i.mnemonic s) s1))
  | modify (m : AddrMode) (a : Nat) (v : Byte) (s1 s2 : State) (h : i.mnemonic.modifies = true)
      (hm : i.mode = .operand (.address m)) (ha : resolveAddress m s = .ok (a, s1)) (hs : SameButDraws s s2) :
      Effect i s (advance ((storeCell a (modifyMeaning i.mnemonic v s2.p).1 s2).withP
        (modifyMeaning i.mnemonic v s2.p).2))
  | shiftA (hm : i.mode = .accumulator) (h : i.mnemonic ∈ [.asl, .lsr, .rol, .ror]) :
      Effect i s (advance ((s.withA (modifyMeaning i.mnemonic s.a s.p).1).withP (modifyMeaning i.mnemonic s.a s.p).2))
  | register (hm : i.mode = .implied) (hpush : i.mnemonic.pushes = false) (hpop : i.mnemonic.pops = false)
      (hhalt : i.mnemonic ≠ .halt) : Effect i s (advance (registerMeaning i.mnemonic s))
  | branchTaken (a : Nat) (s1 : State) (flag : FlagName) (want : Bool)
      (h : branchTest i.mnemonic = some (flag, want)) (hflag : s.p.get flag = want) (hs : SameButDraws s s1)
      (ha : a < memSize) : Effect i s (wentTo a s1)
  | branchNotTaken (flag : FlagName) (want : Bool) (h : branchTest i.mnemonic = some (flag, want))
      (hflag : s.p.get flag ≠ want) : Effect i s (advance s)
  | jmp (a : Nat) (s1 : State) (h : i.mnemonic = .jmp) (hs : SameButDraws s s1) (ha : a < memSize) :
      Effect i s (wentTo a s1)
  | jsr (a : Nat) (h : i.mnemonic = .jsr) (hsp : 2 ≤ s.sp.toNat) (ha : a < memSize) :
      Effect i s (wentTo a (afterPush16 (pcWord s) s))
  | rts (a : Nat) (sp : Byte) (h : i.mnemonic = .rts) (ha : a < memSize) : Effect i s (wentTo a (s.withSp sp))
  | push (v : Byte) (h : i.mnemonic ∈ [.pha, .php]) : Effect i s (advance (afterPush v s))
  | pla (v sp : Byte) (h : i.mnemonic = .pla) : Effect i s (advance (setA v (s.withSp sp)))
  | plp (p : Flags) (sp : Byte) (h : i.mnemonic = .plp) : Effect i s (advance ((s.withSp sp).withP p))
  | brk (a : Nat) (s1 : State) (h : i.mnemonic = .brk) (hsp : 3 ≤ s.sp.toNat)
      (hs : SameButDraws (interruptEntered s) s1) (ha : a < memSize) : Effect i s (wentTo a s1)
  | rti (a : Nat) (p : Flags) (sp : Byte) (h : i.mnemonic = .rti) (ha : a < memSize) :
      Effect i s (wentTo a ((s.withP p).withSp sp))
  | halt (h : i.mnemonic = .halt) : Effect i s (s.withStatus .stopped)

theorem effect_of_jsr {w : Word} {s t : State} (h : jsr w s = .next t) : Effect (.jsr w) s t := by
  obtain ⟨u, hu, h⟩ := bind_ok_iff.mp (finish_next_iff.mp h)
  cases hu
  obtain ⟨u, hu, h⟩ := bind_ok_iff.mp h
  obtain ⟨hsp, hsp', rfl⟩ := push16_ok_iff.mp hu
  obtain ⟨hlt, rfl⟩ := goto_ok_iff.mp h
  exact .jsr w.toNat rfl (by bv_omega) hlt

theorem effect_of_push {i : Instr} {v : Byte} {s t : State} (hi : i.mnemonic ∈ [.pha, .php])
    (h : finish (push8 v s >>= fun u => .ok (advance u)) = .next t) : Effect i s t := by
  obtain ⟨u, hu, h⟩ := bind_ok_iff.mp (finish_next_iff.mp h)
  obtain ⟨_, rfl⟩ := push8_ok_iff.mp hu
  cases h
  exact .push v hi

theorem effect_of_stackOrHalt {i : Instr} {s t : State} (hi : i ∈ [.pha, .pla, .php, .plp, .rts, .brk, .rti, .halt])
    (h : (Shape.other i.mnemonic).run s = .next t) : Effect i s t := by
  simp only [List.mem_cons, List.not_mem_nil, or_false] at hi
  obtain rfl | rfl | rfl | rfl | rfl | rfl | rfl | rfl := hi
  · exact effect_of_push (by decide) h
  · obtain ⟨r, hr, h⟩ := bind_ok_iff.mp (finish_next_iff.mp h)
    obtain ⟨_, rfl⟩ := pop8_ok_iff.mp hr
    cases h
    exact .pla _ _ rfl
  · exact effect_of_push (by decide) h
  · obtain ⟨u, hu, h⟩ := bind_ok_iff.mp (finish_next_iff.mp h)
    obtain ⟨_, rfl⟩ := popFlags_ok_iff.mp hu
    cases h
    exact .plp _ _ rfl
  · obtain ⟨r, hr, h⟩ := bind_ok_iff.mp (finish_next_iff.mp h)
    obtain ⟨_, _, rfl⟩ := pop16_ok_iff.mp hr
    obtain ⟨hlt, rfl⟩ := goto_ok_iff.mp h
    exact .rts _ _ rfl hlt
  · obtain ⟨hsp, a, s1, hs, ha, rfl⟩ := takeInterrupt_ok (finish_next_iff.mp h)
    exact .brk a s1 rfl hsp hs ha
  · obtain ⟨a, p, sp, ha, rfl⟩ := returnFromInterrupt_ok (finish_next_iff.mp h)
    exact .rti a p sp rfl ha
  · cases h
    exact .halt rfl

/-- Every next state of an instruction is one of `Effect`'s: the inversion of `exec`. -/
theorem effect_of_exec {i : Instr} {s t : State} (h : exec i s = .next t) : Effect i s t := by
  rw [exec_eq] at h
  have hshape := hasShape i
  generalize shapeOf i.mnemonic i.mode = sh at h hshape
  cases hshape with
  | read m hm hr =>
    obtain ⟨⟨v, s1⟩, hv, rfl⟩ := readThen_next_iff.mp h
    exact .read v s1 hr (readOperand_same hv)
  | store m hm hst =>
    obtain ⟨⟨a, s1⟩, ha, _, rfl⟩ := storeThen_next_iff.mp h
    exact .store m a s1 hst hm ha (resolveAddress_same ha)
  | modify m hm hmod =>
    obtain ⟨⟨a, s1⟩, ⟨v, s2⟩, ha, hv, rfl⟩ := modifyThen_next_iff.mp h
    exact .modify m a v s1 s2 hmod hm ha ((resolveAddress_same ha).trans (memRead_same hv))
  | shiftA hm hmem => cases h; exact .shiftA hm hmem
  | register hm hpush hpop hhalt => cases h; exact .register hm hpush hpop hhalt
  | branch flag want b hm hb =>
    dsimp only [Shape.run] at h
    split at h
    · obtain ⟨a, s1, hs, ha, rfl⟩ := jumpTo_ok (finish_next_iff.mp h)
      exact .branchTaken a s1 flag want hb ‹_› hs ha
    · cases h; exact .branchNotTaken flag want hb ‹_›
  | jump m hm hj =>
    obtain ⟨a, s1, hs, ha, rfl⟩ := jumpTo_ok (finish_next_iff.mp h)
    exact .jmp a s1 hj hs ha
  | call w hi => subst hi; exact effect_of_jsr h
  | other hi => exact effect_of_stackOrHalt hi h

/-! # How instructions commit the counters -/

theorem readMeaning_pc (mn : Mnemonic) (v : Byte) (s : State) : (readMeaning mn v s).pc = s.pc := by
  cases mn <;> rfl

theorem registerMeaning_pc (mn : Mnemonic) (s : State) : (registerMeaning mn s).pc = s.pc := by
  cases mn <;> rfl

/-- The instructions that end in `Advance` on every path: all but HALT, those that always go, and the branches. -/
def justAdvances (mn : Mnemonic) : Bool := mn != .halt && !mn.alwaysGoes && (branchTest mn).isNone

theorem justAdvances_iff {mn : Mnemonic} :
    justAdvances mn = true ↔ mn ≠ .halt ∧ mn.alwaysGoes = false ∧ branchTest mn = none := by
  simp [justAdvances, and_assoc]

theorem justAdvances_of_readsOperand {mn : Mnemonic} : mn.readsOperand = true → justAdvances mn = true := by
  cases mn <;> decide

theorem justAdvances_of_stores {mn : Mnemonic} : mn.stores = true → justAdvances mn = true := by
  cases mn <;> decide

theorem justAdvances_of_modifies {mn : Mnemonic} : mn.modifies = true → justAdvances mn = true := by
  cases mn <;> decide

theorem modifies_of_shift {mn : Mnemonic} : mn ∈ [.asl, .lsr, .rol, .ror] → mn.modifies = true := by
  cases mn <;> decide

theorem justAdvances_of_push {mn : Mnemonic} : mn ∈ [.pha, .php] → justAdvances mn = true := by
  cases mn <;> decide

/-- A one-byte instruction that is neither HALT nor a stack instruction just advances. -/
theorem justAdvances_of_implied {i : Instr} (hm : i.mode = .implied) (hpush : i.mnemonic.pushes = false)
    (hpop : i.mnemonic.pops = false) (hhalt : i.mnemonic ≠ .halt) : justAdvances i.mnemonic = true := by
  cases i
  case halt => exact absurd rfl hhalt
  case brk => cases hpush
  case rts | rti => cases hpop
  all_goals first | rfl | cases hm

/-- An instruction that always goes is no branch. -/
theorem branchTest_of_alwaysGoes {mn : Mnemonic} : mn.alwaysGoes = true → branchTest mn = none := by
  cases mn <;> decide

theorem ne_halt_of_branchTest {mn : Mnemonic} {test : FlagName × Bool} (h : branchTest mn = some test) :
    mn ≠ .halt := by
  rintro rfl
  cases h

/-- The four ways an instruction leaves the counters (46 R263). -/
inductive Commit (mn : Mnemonic) (s t : State) : Prop
  | nothing (h : mn = .halt) (hpc : t.pc = s.pc) (hispc : t.ispc = s.ispc)
  | goes (h : mn.alwaysGoes = true) (hispc : t.ispc = t.pc) (hlt : t.pc < memSize)
  | branches (flag : FlagName) (want : Bool) (h : branchTest mn = some (flag, want)) (hispc : t.ispc = t.pc)
      (taken : s.p.get flag = want → t.pc < memSize) (notTaken : s.p.get flag ≠ want → t.pc = s.pc)
  | advances (h : justAdvances mn = true) (hpc : t.pc = s.pc) (hispc : t.ispc = s.pc)

/-- A state in which one of the instructions that just advance has ended. -/
theorem Commit.of_advance {mn : Mnemonic} {s u : State} (h : justAdvances mn = true) (hpc : u.pc = s.pc) :
    Commit mn s (advance u) :=
  .advances h hpc hpc

theorem Effect.commit {i : Instr} {s t : State} (h : Effect i s t) : Commit i.mnemonic s t := by
  cases h with
  | read v s1 hr hs =>
    obtain ⟨ds, n, rfl⟩ := hs.exists_eq
    exact .of_advance (justAdvances_of_readsOperand hr) (readMeaning_pc ..)
  | store m a s1 hst hm ha hs =>
    obtain ⟨ds, n, rfl⟩ := hs.exists_eq
    exact .of_advance (justAdvances_of_stores hst) rfl
  | modify m a v s1 s2 hmod hm ha hs =>
    obtain ⟨ds, n, rfl⟩ := hs.exists_eq
    exact .of_advance (justAdvances_of_modifies hmod) rfl
  | shiftA hm hmem => exact .of_advance (justAdvances_of_modifies (modifies_of_shift hmem)) rfl
  | register hm hpush hpop hhalt =>
    exact .of_advance (justAdvances_of_implied hm hpush hpop hhalt) (registerMeaning_pc ..)
  | branchTaken a s1 flag want hb hflag hs ha => exact .branches flag want hb rfl (fun _ => ha) (absurd hflag)
  | branchNotTaken flag want hb hflag => exact .branches flag want hb rfl (fun hf => absurd hf hflag) fun _ => rfl
  | jmp a s1 hmn hs ha | jsr a hmn hsp ha | rts a sp hmn ha | brk a s1 hmn hsp hs ha | rti a p sp hmn ha =>
    exact .goes (by rw [hmn]; rfl) rfl ha
  | push v hmn => exact .of_advance (justAdvances_of_push hmn) rfl
  | pla v sp hmn | plp p sp hmn => exact .of_advance (by rw [hmn]; rfl) rfl
  | halt hmn => exact .nothing hmn rfl rfl

/-- Settles O56: every effect commits in one of the four ways, and its mnemonic rules the other three out. -/
theorem commitRule : Obligations.CommitRule := by
  intro i s t h
  cases (effect_of_exec h).commit with
  | nothing hmn hpc hispc =>
    refine ⟨fun _ => ⟨hpc, hispc⟩, fun hg => ?_, fun f want hb => ?_, fun hne => absurd hmn hne⟩
    · rw [hmn] at hg; cases hg
    · exact absurd hmn (ne_halt_of_branchTest hb)
  | goes hg hispc hlt =>
    refine ⟨fun hmn => ?_, fun _ => ⟨hispc, hlt⟩, fun f want hb => ?_, fun _ hng => ?_⟩
    · rw [hmn] at hg; cases hg
    · rw [branchTest_of_alwaysGoes hg] at hb; cases hb
    · rw [hg] at hng; cases hng
  | branches flag want hb hispc taken notTaken =>
    refine ⟨fun hmn => absurd hmn (ne_halt_of_branchTest hb), fun hg => ?_, fun f w hb' => ?_, fun _ _ hnb => ?_⟩
    · rw [branchTest_of_alwaysGoes hg] at hb; cases hb
    · rw [hb] at hb'; cases hb'
      exact ⟨hispc, taken, notTaken⟩
    · rw [hb] at hnb; cases hnb
  | advances hadv hpc hispc =>
    obtain ⟨hne, hng, hnb⟩ := justAdvances_iff.mp hadv
    refine ⟨fun hmn => absurd hmn hne, fun hg => ?_, fun f want hb => ?_, fun _ _ _ => ⟨hpc, hispc⟩⟩
    · rw [hng] at hg; cases hg
    · rw [hnb] at hb; cases hb

/-! # What instructions keep of the sequencer's state -/

theorem instr_of_mnemonic_halt {i : Instr} (h : i.mnemonic = .halt) : i = .halt := by
  cases i <;> first | rfl | cases h

/-- Every instruction but HALT keeps all that `Keeps` lists. -/
theorem exec_keeps {i : Instr} {s t : State} (h : exec i s = .next t) (hi : i.mnemonic ≠ .halt) : Keeps s t := by
  rw [exec_eq] at h
  refine Shape.run_keeps h fun hsh => hi ?_
  have hs := hasShape i
  rw [hsh] at hs
  generalize hsh' : Shape.other .halt = sh at hs
  cases hs with
  | other hi => exact (Shape.other.inj hsh').symm
  | _ => cases hsh'

/-- HALT changes the status and nothing else. -/
theorem exec_halt {i : Instr} {s t : State} (h : exec i s = .next t) (hi : i.mnemonic = .halt) :
    t = s.withStatus .stopped := by
  obtain rfl := instr_of_mnemonic_halt hi
  cases h
  rfl

/-- Settles O55: HALT writes the status alone; every other instruction keeps what `Keeps` lists. -/
theorem sequencerFrame : Obligations.SequencerFrame := by
  intro i s t h
  by_cases hi : i.mnemonic = .halt
  · rw [exec_halt h hi, if_pos hi]
    exact ⟨rfl, rfl, rfl, rfl, rfl, List.suffix_refl _, Nat.le_refl _⟩
  · obtain ⟨snapshot, running, host, hostRest, status, draws, count, _⟩ := exec_keeps h hi
    rw [if_neg hi]
    exact ⟨snapshot, running, host, hostRest, status, draws, count⟩

/-! # The invariant -/

/-- A state in which a run goes on or has ended, but not with a HALT. -/
theorem State.Inv.of_not_stopped {s : State} (hm : Memory.wf memSize s.mem = true)
    (hs : Memory.wf displaySize s.snapshot = true) (hpc : s.pc ≤ memSize) (hc : s.pc = s.ispc)
    (hst : s.status ≠ .stopped) : s.Inv :=
  ⟨hm, hs, hpc, by rw [if_neg hst]; exact hc⟩

theorem State.Inv.counters_agree {s : State} (h : s.Inv) (hst : s.status ≠ .stopped) : s.pc = s.ispc := by
  have hc := h.counters
  rwa [if_neg hst] at hc

/-- The host window keeps the invariant of a state that is not stopped. -/
theorem hostWindow_keeps_inv {s : State} (h : s.Inv) (hst : s.status ≠ .stopped) : (hostWindow s).Inv := by
  obtain ⟨-, -, -, -, hpc, hispc, -, hsnap, hstatus, hmem⟩ := hostWindow_frame s
  refine .of_not_stopped (hmem h.mem_wf) (hsnap ▸ h.snapshot_wf) (hpc ▸ h.pc_le) ?_ ?_
  · rw [hpc, hispc, h.counters_agree hst]
  · obtain hq | hq := hstatus <;> rw [hq]
    · exact hst
    · decide

/-- After every instruction but HALT the counters agree and are in range, where PC was in range before. -/
theorem Commit.counters_agree {mn : Mnemonic} {s t : State} (h : Commit mn s t) (hmn : mn ≠ .halt)
    (hpc : s.pc ≤ memSize) : t.pc ≤ memSize ∧ t.pc = t.ispc := by
  cases h with
  | nothing h => exact absurd h hmn
  | goes h hispc hlt => exact ⟨hlt.le, hispc.symm⟩
  | branches flag want h hispc taken notTaken =>
    refine ⟨?_, hispc.symm⟩
    by_cases hf : s.p.get flag = want
    · exact (taken hf).le
    · exact notTaken hf ▸ hpc
  | advances h hpc' hispc => exact ⟨hpc' ▸ hpc, hpc'.trans hispc.symm⟩

theorem operandCount_halt : Instr.halt.operandCount = 0 := rfl

/-- The body of a fetched instruction ends in a state that meets the invariant: HALT leaves PC one past ISPC, as its one
byte was fetched and neither counter committed; every other instruction commits both. -/
theorem exec_inv {i : Instr} {s s1 u : State} (hs : s.Inv) (hrun : s.status = .running)
    (hf : fetch s = .ok (some i, s1)) (h : exec i s1 = .next u) : u.Inv := by
  obtain ⟨_, hr⟩ | ⟨_, _, hr, hsame, hpc, hle⟩ := fetch_ok hf
  · cases hr
  cases hr
  obtain ⟨-, -, -, -, hispc, -, hmem, -, -, hstatus, hsnap, -, -⟩ := hsame.fields
  have hst : s.status ≠ .stopped := by rw [hrun]; decide
  have hwf : Memory.wf memSize s1.mem = true := hmem ▸ hs.mem_wf
  have hsnap : Memory.wf displaySize s1.snapshot = true := hsnap ▸ hs.snapshot_wf
  by_cases hi : i = .halt
  · subst hi
    rw [exec_halt h rfl]
    refine ⟨hwf, hsnap, hle, ?_⟩
    simp [hpc, hispc, hs.counters_agree hst, operandCount_halt]
  · have hmn : i.mnemonic ≠ .halt := fun hmn => hi (instr_of_mnemonic_halt hmn)
    have hk := exec_keeps h hmn
    obtain ⟨hle', hagree⟩ := (effect_of_exec h).commit.counters_agree hmn hle
    refine .of_not_stopped (hk.wf hwf) (hk.snapshot ▸ hsnap) hle' hagree ?_
    rwa [hk.status, hstatus]

/-- Settles O11: a step changes nothing, ends the run, or runs a fetched instruction; no host window follows a HALT, and
a host window keeps the invariant of every other state. -/
theorem stepKeepsInv : Obligations.StepKeepsInv := by
  intro s t hs h
  obtain ⟨_, rfl⟩ | ⟨hrun, _, rfl⟩ | ⟨hrun, i, s1, u, hf, he, rfl⟩ := step_next h
  · exact hs
  · have hst : s.status ≠ .stopped := by rw [hrun]; decide
    exact .of_not_stopped hs.mem_wf hs.snapshot_wf hs.pc_le (hs.counters_agree hst) nofun
  · have hu := exec_inv hs hrun hf he
    split
    · exact hu
    · exact hostWindow_keeps_inv hu ‹_›

/-! # Which flags an instruction writes

For each mnemonic and each flag either the table lists the flag, or the meaning leaves it alone by definition. -/

theorem readMeaning_get {mn : Mnemonic} {f : FlagName} (v : Byte) (s : State) (hf : f ∉ flagsWritten mn) :
    (readMeaning mn v s).p.get f = s.p.get f := by
  cases mn <;> cases f <;> first | rfl | simp [flagsWritten] at hf

theorem modifyMeaning_get {mn : Mnemonic} {f : FlagName} (v : Byte) (p : Flags) (hf : f ∉ flagsWritten mn) :
    (modifyMeaning mn v p).2.get f = p.get f := by
  cases mn <;> cases f <;> first | rfl | simp [flagsWritten] at hf

theorem registerMeaning_get {mn : Mnemonic} {f : FlagName} (s : State) (hf : f ∉ flagsWritten mn) :
    (registerMeaning mn s).p.get f = s.p.get f := by
  cases mn <;> cases f <;> first | rfl | simp [flagsWritten] at hf

/-- PLP and RTI write every flag. -/
theorem mem_flagsWritten_of_popsFlags {mn : Mnemonic} (f : FlagName) (h : mn = .plp ∨ mn = .rti) :
    f ∈ flagsWritten mn := by
  obtain rfl | rfl := h <;> cases f <;> decide

/-- Setting INTERRUPT_DISABLE leaves the other six flags. -/
theorem setI_get {f : FlagName} (p : Flags) (hf : f ≠ .i) : ({ p with i := true } : Flags).get f = p.get f := by
  cases f <;> first | rfl | exact absurd rfl hf

/-- Settles O52: what is left of each effect is its meaning's own table of flags. -/
theorem flagFrame : Obligations.FlagFrame := by
  intro i s t f h hf
  cases effect_of_exec h with
  | read v s1 hr hs =>
    obtain ⟨ds, n, rfl⟩ := hs.exists_eq
    exact readMeaning_get v _ hf
  | store m a s1 hst hm ha hs =>
    obtain ⟨ds, n, rfl⟩ := hs.exists_eq
    simp
  | modify m a v s1 s2 hmod hm ha hs =>
    obtain ⟨ds, n, rfl⟩ := hs.exists_eq
    exact modifyMeaning_get v s.p hf
  | shiftA hm hmem => exact modifyMeaning_get s.a s.p hf
  | register hm hpush hpop hhalt => exact registerMeaning_get s hf
  | branchTaken a s1 flag want hb hflag hs ha | jmp a s1 hmn hs ha =>
    obtain ⟨ds, n, rfl⟩ := hs.exists_eq
    simp
  | branchNotTaken | jsr | rts | push | halt => simp
  | pla v sp hmn => exact readMeaning_get (mn := .lda) v (s.withSp sp) (by rw [hmn] at hf; exact hf)
  | plp p sp hmn => exact absurd (mem_flagsWritten_of_popsFlags f (.inl hmn)) hf
  | rti a p sp hmn ha => exact absurd (mem_flagsWritten_of_popsFlags f (.inr hmn)) hf
  | brk a s1 hmn hsp hs ha =>
    obtain ⟨ds, n, rfl⟩ := hs.exists_eq
    have hi : f ≠ .i := fun hi => hf (by rw [hmn, hi]; decide)
    simpa using setI_get s.p hi

/-! # Which registers an instruction changes -/

/-- What 10 R31 to R34 say an instruction leaves of A, X, Y and SP. -/
structure RegistersKept (mn : Mnemonic) (m : Mode) (s t : State) : Prop where
  a : mn ∉ [.lda, .txa, .tya, .pla, .adc, .sbc, .and, .ora, .eor] →
    ¬(mn ∈ [.asl, .lsr, .rol, .ror] ∧ m = .accumulator) → t.a = s.a
  x : mn ∉ [.ldx, .tax, .tsx, .inx, .dex] → t.x = s.x
  y : mn ∉ [.ldy, .tay, .iny, .dey] → t.y = s.y
  sp : mn ∉ [.txs, .pha, .pla, .php, .plp, .jsr, .rts, .brk, .rti] → t.sp = s.sp

/-- An effect that changes no register keeps them, whatever the instruction. -/
theorem RegistersKept.of_eq {mn : Mnemonic} {m : Mode} {s t : State} (ha : t.a = s.a) (hx : t.x = s.x) (hy : t.y = s.y)
    (hsp : t.sp = s.sp) : RegistersKept mn m s t :=
  ⟨fun _ _ => ha, fun _ => hx, fun _ => hy, fun _ => hsp⟩

/-- An effect that changes SP alone, of an instruction that may. -/
theorem RegistersKept.of_sp {mn : Mnemonic} {m : Mode} {s t : State}
    (hmn : mn ∈ [.txs, .pha, .pla, .php, .plp, .jsr, .rts, .brk, .rti]) (ha : t.a = s.a) (hx : t.x = s.x)
    (hy : t.y = s.y) : RegistersKept mn m s t :=
  ⟨fun _ _ => ha, fun _ => hx, fun _ => hy, fun h => absurd hmn h⟩

theorem RegistersKept.advance {mn : Mnemonic} {m : Mode} {s t : State} (h : RegistersKept mn m s t) :
    RegistersKept mn m s (advance t) :=
  ⟨h.a, h.x, h.y, h.sp⟩

/-- Reading an operand first changes no register. -/
theorem RegistersKept.of_read {mn : Mnemonic} {m : Mode} {s s1 t : State} (hs : SameButDraws s s1)
    (h : RegistersKept mn m s1 t) : RegistersKept mn m s t := by
  obtain ⟨ds, n, rfl⟩ := hs.exists_eq
  exact ⟨h.a, h.x, h.y, h.sp⟩

theorem readMeaning_registers (mn : Mnemonic) (m : Mode) (v : Byte) (s : State) :
    RegistersKept mn m s (readMeaning mn v s) := by
  refine ⟨fun h _ => ?_, fun h => ?_, fun h => ?_, fun h => ?_⟩
  all_goals cases mn <;> first | rfl | simp at h

theorem registerMeaning_registers (mn : Mnemonic) (m : Mode) (s : State) :
    RegistersKept mn m s (registerMeaning mn s) := by
  refine ⟨fun h _ => ?_, fun h => ?_, fun h => ?_, fun h => ?_⟩
  all_goals cases mn <;> first | rfl | simp at h

theorem mem_changesSp_of_push {mn : Mnemonic} :
    mn ∈ [.pha, .php] → mn ∈ [.txs, .pha, .pla, .php, .plp, .jsr, .rts, .brk, .rti] := by
  cases mn <;> decide

theorem Effect.registers {i : Instr} {s t : State} (h : Effect i s t) : RegistersKept i.mnemonic i.mode s t := by
  cases h with
  | read v s1 hr hs => exact ((readMeaning_registers _ _ v s1).of_read hs).advance
  | store m a s1 hst hm ha hs | modify m a v s1 s2 hmod hm ha hs =>
    obtain ⟨ds, n, rfl⟩ := hs.exists_eq
    exact .of_eq (by simp) (by simp) (by simp) (by simp)
  | shiftA hm hmem => exact ⟨fun _ hn => absurd ⟨hmem, hm⟩ hn, fun _ => rfl, fun _ => rfl, fun _ => rfl⟩
  | register hm hpush hpop hhalt => exact (registerMeaning_registers _ _ s).advance
  | branchTaken a s1 flag want hb hflag hs ha | jmp a s1 hmn hs ha =>
    obtain ⟨ds, n, rfl⟩ := hs.exists_eq
    exact .of_eq (by simp) (by simp) (by simp) (by simp)
  | branchNotTaken | halt => exact .of_eq rfl rfl rfl rfl
  | pla v sp hmn =>
    refine ⟨fun hn => ?_, fun _ => rfl, fun _ => rfl, fun hn => ?_⟩ <;> simp [hmn] at hn
  | push v hmn => exact .of_sp (mem_changesSp_of_push hmn) rfl rfl rfl
  | plp p sp hmn | rts a sp hmn ha | rti a p sp hmn ha => exact .of_sp (by rw [hmn]; decide) rfl rfl rfl
  | jsr a hmn hsp ha => exact .of_sp (by rw [hmn]; decide) (by simp) (by simp) (by simp)
  | brk a s1 hmn hsp hs ha =>
    obtain ⟨ds, n, rfl⟩ := hs.exists_eq
    exact .of_sp (by rw [hmn]; decide) (by simp) (by simp) (by simp)

/-- Settles O53: no effect changes a register that the instruction's rule does not list. -/
theorem registerFrame : Obligations.RegisterFrame := by
  intro i s t h
  obtain ⟨ha, hx, hy, hsp⟩ := (effect_of_exec h).registers
  refine ⟨fun hne => ?_, fun hne => ?_, fun hne => ?_, fun hne => ?_⟩ <;> by_contra hn
  · obtain ⟨hn, hn'⟩ := not_or.mp hn
    exact hne (ha hn hn')
  · exact hne (hx hn)
  · exact hne (hy hn)
  · exact hne (hsp hn)

/-! # Which cells an instruction changes -/

/-- What 10 R44 and the rules of the stores say an instruction leaves of memory and of `dirty`. -/
structure MemoryKept (i : Instr) (s t : State) : Prop where
  dirty : s.dirty = true → t.dirty = true
  storeless : i.mnemonic.pushes = false → (∀ m, i.mode = .operand (.address m) → i.mnemonic.stores = false ∧
    i.mnemonic.modifies = false) → t.dirty = s.dirty ∧ ∀ b, cellAt t.mem b = cellAt s.mem b
  stored : ∀ m a s1, i.mnemonic.stores = true ∨ i.mnemonic.modifies = true → i.mode = .operand (.address m) →
    resolveAddress m s = .ok (a, s1) → ∀ b, b ≠ a → cellAt t.mem b = cellAt s.mem b
  pushed : i.mnemonic ∈ [.pha, .php] → ∀ b, b ≠ 0x100 + s.sp.toNat → cellAt t.mem b = cellAt s.mem b
  called : i.mnemonic = .jsr → ∀ b, b + 1 < 0x100 + s.sp.toNat ∨ 0x100 + s.sp.toNat < b →
    cellAt t.mem b = cellAt s.mem b
  interrupted : i.mnemonic = .brk → ∀ b, b + 2 < 0x100 + s.sp.toNat ∨ 0x100 + s.sp.toNat < b →
    cellAt t.mem b = cellAt s.mem b

theorem MemoryKept.of_eq {i : Instr} {s t : State} (hd : t.dirty = s.dirty) (hm : t.mem = s.mem) :
    MemoryKept i s t := by
  constructor <;> simp [hd, hm]

theorem pushes_of_stores {mn : Mnemonic} : mn.stores = true ∨ mn.modifies = true → mn.pushes = false := by
  cases mn <;> decide

theorem pushes_of_push {mn : Mnemonic} : mn ∈ [.pha, .php] → mn.pushes = true := by
  cases mn <;> decide

/-- A store or a read-modify-write: the cell at the resolved address alone is written. -/
theorem MemoryKept.of_store {i : Instr} {s t : State} {m : AddrMode} {a : Nat} {s1 : State} {v : Byte} {d : Bool}
    (h : i.mnemonic.stores = true ∨ i.mnemonic.modifies = true) (hm : i.mode = .operand (.address m))
    (ha : resolveAddress m s = .ok (a, s1)) (hd : t.dirty = (s.dirty || d)) (hmem : t.mem = setCell s.mem a v) :
    MemoryKept i s t where
  dirty hs := by simp [hd, hs]
  storeless _ hno := by
    obtain ⟨hst, hmod⟩ := hno m hm
    simp [hst, hmod] at h
  stored m' a' s1' _ hm' ha' b hb := by
    rw [hm] at hm'; cases hm'
    rw [ha] at ha'; cases ha'
    rw [hmem, cellAt_setCell_other _ _ hb]
  pushed hmn := by have := pushes_of_push hmn; simp [pushes_of_stores h] at this
  called hmn := by have := pushes_of_stores h; simp [hmn, Mnemonic.pushes] at this
  interrupted hmn := by have := pushes_of_stores h; simp [hmn, Mnemonic.pushes] at this

/-- A push, whose own slots are given by the clause of its mnemonic. -/
theorem MemoryKept.of_pushes {i : Instr} {s t : State} (h : i.mnemonic.pushes = true)
    (dirty : s.dirty = true → t.dirty = true)
    (pushed : i.mnemonic ∈ [.pha, .php] → ∀ b, b ≠ 0x100 + s.sp.toNat → cellAt t.mem b = cellAt s.mem b)
    (called : i.mnemonic = .jsr → ∀ b, b + 1 < 0x100 + s.sp.toNat ∨ 0x100 + s.sp.toNat < b →
      cellAt t.mem b = cellAt s.mem b)
    (interrupted : i.mnemonic = .brk → ∀ b, b + 2 < 0x100 + s.sp.toNat ∨ 0x100 + s.sp.toNat < b →
      cellAt t.mem b = cellAt s.mem b) : MemoryKept i s t where
  dirty := dirty
  storeless hp := by simp [h] at hp
  stored _ _ _ hst := by simp [pushes_of_stores hst] at h
  pushed := pushed
  called := called
  interrupted := interrupted

theorem readMeaning_mem (mn : Mnemonic) (v : Byte) (s : State) :
    (readMeaning mn v s).dirty = s.dirty ∧ (readMeaning mn v s).mem = s.mem := by
  cases mn <;> exact ⟨rfl, rfl⟩

theorem registerMeaning_mem (mn : Mnemonic) (s : State) :
    (registerMeaning mn s).dirty = s.dirty ∧ (registerMeaning mn s).mem = s.mem := by
  cases mn <;> exact ⟨rfl, rfl⟩

theorem Effect.memory {i : Instr} {s t : State} (h : Effect i s t) : MemoryKept i s t := by
  cases h with
  | read v s1 hr hs =>
    obtain ⟨ds, n, rfl⟩ := hs.exists_eq
    obtain ⟨hd, hm⟩ := readMeaning_mem i.mnemonic v ((s.withDraws ds).withDrawCount n)
    exact .of_eq hd hm
  | store m a s1 hst hm ha hs =>
    obtain ⟨ds, n, rfl⟩ := hs.exists_eq
    exact .of_store (.inl hst) hm ha rfl rfl
  | modify m a v s1 s2 hmod hm ha hs =>
    obtain ⟨ds, n, rfl⟩ := hs.exists_eq
    exact .of_store (.inr hmod) hm ha rfl rfl
  | register hm hpush hpop hhalt =>
    obtain ⟨hd, hm⟩ := registerMeaning_mem i.mnemonic s
    exact .of_eq hd hm
  | branchTaken a s1 flag want hb hflag hs ha | jmp a s1 hmn hs ha =>
    obtain ⟨ds, n, rfl⟩ := hs.exists_eq
    exact .of_eq rfl rfl
  | shiftA | branchNotTaken | rts | pla | plp | rti | halt => exact .of_eq rfl rfl
  | push v hmn =>
    refine .of_pushes (pushes_of_push hmn) afterPush_dirty (fun _ b hb => cellAt_afterPush_other hb) ?_ ?_ <;>
      intro h <;> simp [h] at hmn
  | jsr a hmn hsp ha =>
    refine .of_pushes (by rw [hmn]; rfl) (fun hd => ?_) ?_ (fun _ b hb => ?_) ?_
    · simpa using afterPush16_dirty hd
    · simp [hmn]
    · simpa using cellAt_afterPush16_other (by bv_omega) hb
    · simp [hmn]
  | brk a s1 hmn hsp hs ha =>
    obtain ⟨ds, n, rfl⟩ := hs.exists_eq
    refine .of_pushes (by rw [hmn]; rfl) (fun hd => ?_) ?_ ?_ fun _ b hb => ?_
    · simpa using interruptEntered_dirty hd
    · simp [hmn]
    · simp [hmn]
    · simpa using cellAt_interruptEntered_other (by bv_omega) hb

/-- Settles O54: each effect writes the cells of its own clause, if any. -/
theorem memoryFrame : Obligations.MemoryFrame := by
  intro i s t h
  obtain ⟨dirty, storeless, stored, pushed, called, interrupted⟩ := (effect_of_exec h).memory
  exact ⟨dirty, storeless, stored, pushed, called, interrupted⟩

end Sys2Proof.Machine
end

section
namespace Sys2Proof.Machine

open Sys2Proof

/-! # The bus (20_memory.md)

What one read, one write and the 16-bit read answer, case by case; the pointer modes follow from the 16-bit read. -/

/-! ## The random source -/

theorem drawByte_toNat (d : Fin 15) : (drawByte d).toNat = d.val + 1 := by
  have := d.isLt
  rw [drawByte, BitVec.toNat_ofNat]
  omega

theorem draw_injected {s : State} {d : Fin 15} {ds : List (Fin 15)} (h : s.draws = d :: ds) :
    draw s = (drawByte d, s.withDraws ds) := by
  simp only [draw, h]

theorem draw_free {s : State} (h : s.draws = []) :
    draw s = (drawByte (Config.freeDraw s.drawCount), s.withDrawCount (s.drawCount + 1)) := by
  simp only [draw, h]

/-- Both streams give the byte of an index below 15. -/
theorem draw_eq_drawByte (s : State) : ∃ d, (draw s).1 = drawByte d := by
  cases h : s.draws with
  | nil => exact ⟨_, by rw [draw_free h]⟩
  | cons d ds => exact ⟨d, by rw [draw_injected h]⟩

theorem draw_range (s : State) : 1 ≤ (draw s).1.toNat ∧ (draw s).1.toNat < 16 := by
  obtain ⟨d, hd⟩ := draw_eq_drawByte s
  rw [hd, drawByte_toNat]
  have := d.isLt
  omega

/-! ## One byte -/

theorem memRead_random (s : State) : memRead randomAddr s = .ok (draw s) :=
  memRead_ok_iff.mpr ⟨by decide, .inl ⟨rfl, rfl⟩⟩

theorem memRead_outOfBounds {a : Nat} (s : State) (h : memSize ≤ a) :
    memRead a s = .error (.outOfBounds a (s.withStatus (.faulted .outOfBounds))) :=
  memRead_error_iff.mpr ⟨h, rfl⟩

theorem memRead_succeeds {a : Nat} (s : State) (h : a < memSize) : ∃ v s1, memRead a s = .ok (v, s1) := by
  by_cases hr : a = randomAddr
  · exact ⟨_, _, hr ▸ memRead_random s⟩
  · exact ⟨_, _, memRead_plain s h hr⟩

theorem memWrite_ok (v : Byte) (s : State) {a : Nat} (h : a < memSize) : memWrite a v s = .ok (storeCell a v s) :=
  memWrite_ok_iff.mpr ⟨h, rfl⟩

theorem memWrite_outOfBounds (v : Byte) (s : State) {a : Nat} (h : memSize ≤ a) :
    memWrite a v s = .error (.outOfBounds a (s.withStatus (.faulted .outOfBounds))) :=
  memWrite_error_iff.mpr ⟨h, rfl⟩

theorem inDisplay_eq_decide (a : Nat) :
    inDisplay a = decide (Config.displayBase ≤ a ∧ a < Config.displayBase + 1024) := by
  rw [Bool.decide_and]
  rfl

/-- Settles O16: the bound, the cell, and the draw of either stream, whose index is below 15. -/
theorem memReadRule : Obligations.MemReadRule := by
  intro s a
  refine ⟨memRead_outOfBounds s, memRead_plain s, ?injected, ?free, ?range, ?fetched⟩
  case injected =>
    intro d ds h
    exact ⟨_, by rw [memRead_random, draw_injected h], drawByte_toNat d⟩
  case free =>
    intro h
    exact ⟨_, by rw [memRead_random, draw_free h], drawByte_toNat _⟩
  case range =>
    intro r h
    rw [memRead_random] at h
    cases h
    exact ⟨(draw_range s).1, (draw_range s).2, draw_same s⟩
  case fetched =>
    intro r h
    exact fetchByte_ok_iff.mpr ⟨r, h, rfl⟩

/-- Settles O18: the memory of the clause is that of `storeCell`. -/
theorem memWriteRule : Obligations.MemWriteRule := by
  intro s a v
  refine ⟨memWrite_outOfBounds v s, fun h => ⟨setCell s.mem a v, ?_, cellAt_setCell_same .., ?_⟩⟩
  · rw [memWrite_ok v s h, ← inDisplay_eq_decide]
    rfl
  · intro b hb
    exact cellAt_setCell_other _ _ hb

/-- Settles O19: the cell holds the byte in both cases, and only a read of `RANDOM_ADDR` passes it over for a draw. -/
theorem readAfterWrite : Obligations.ReadAfterWrite := by
  intro s t a v h
  obtain ⟨ha, rfl⟩ := memWrite_ok_iff.mp h
  have hcell : cellAt (storeCell a v s).mem a = v := cellAt_setCell_same ..
  refine ⟨fun hr => ?_, fun hr => ⟨hcell, fun r hread => ?_⟩⟩
  · rw [memRead_plain _ ha hr, hcell]
  · subst hr
    rw [memRead_random] at hread
    cases hread
    obtain ⟨hpos, hlt⟩ := draw_range (storeCell randomAddr v s)
    exact ⟨rfl, by bv_omega, by omega⟩

/-! ## Two bytes -/

/-- Once the low byte is read, only the high byte is left: the overflow test cannot fire inside memory (20 R73). -/
theorem memRead16_of_low {a : Nat} {s s1 : State} {lo : Byte} (h : memRead a s = .ok (lo, s1)) :
    memRead16 a s = (memRead (a + 1) s1 >>= fun hi => .ok (wordOf hi.1 lo, hi.2)) := by
  have ha := (memRead_ok_iff.mp h).1
  rw [memRead16, bind_of_ok h, if_neg]
  simp only [memSize, addrMax] at *
  omega

theorem memRead16_of_low_error {a : Nat} {s : State} {f : Fault} (h : memRead a s = .error f) :
    memRead16 a s = .error f :=
  bind_of_error h

theorem memRead16_of_high {a : Nat} {s s1 s2 : State} {lo hi : Byte} (hlo : memRead a s = .ok (lo, s1))
    (hhi : memRead (a + 1) s1 = .ok (hi, s2)) : memRead16 a s = .ok (wordOf hi lo, s2) := by
  rw [memRead16_of_low hlo, bind_of_ok hhi]

theorem memRead16_of_high_error {a : Nat} {s s1 : State} {lo : Byte} {f : Fault} (hlo : memRead a s = .ok (lo, s1))
    (hhi : memRead (a + 1) s1 = .error f) : memRead16 a s = .error f := by
  rw [memRead16_of_low hlo, bind_of_error hhi]

theorem memRead16_succeeds {a : Nat} (s : State) (h : a + 1 < memSize) : ∃ p s1, memRead16 a s = .ok (p, s1) := by
  obtain ⟨lo, s1, hlo⟩ := memRead_succeeds s (Nat.lt_of_succ_lt h)
  obtain ⟨hi, s2, hhi⟩ := memRead_succeeds s1 h
  exact ⟨_, _, memRead16_of_high hlo hhi⟩

/-- Settles O17: the second byte is read in the state after the first, with nothing between that can raise. -/
theorem memRead16Rule : Obligations.MemRead16Rule := by
  intro s a
  refine ⟨?both, ?lowFault, ?highFault⟩
  case both =>
    intro lo s1 hi s2 hlo hhi
    exact ⟨wordOf hi lo, memRead16_of_high hlo hhi, wordOf_toNat hi lo⟩
  case lowFault =>
    intro f h
    exact memRead16_of_low_error h
  case highFault =>
    intro lo s1 f hlo hhi
    exact memRead16_of_high_error hlo hhi

/-! ## The pointer modes (40_addressing_modes.md) -/

theorem checkedAdd16_eq (a : Nat) (d : Byte) (s : State) :
    checkedAdd16 a d s = if a + d.toNat ≤ 0xFFFF then .ok (a + d.toNat, s)
      else .error (.addressCalculation (s.withStatus (.faulted .addressCalculation))) := by
  split
  case isTrue h => exact checkedAdd16_ok_iff.mpr ⟨h, rfl⟩
  case isFalse h => exact checkedAdd16_error_iff.mpr ⟨Nat.not_le.mp h, rfl⟩

theorem resolveAddress_indirect_ok {w p : Word} {s s1 : State} (h : memRead16 w.toNat s = .ok (p, s1)) :
    resolveAddress (.indirect w) s = .ok (p.toNat, s1) :=
  bind_of_ok h

theorem resolveAddress_indirect_error {w : Word} {s : State} {f : Fault} (h : memRead16 w.toNat s = .error f) :
    resolveAddress (.indirect w) s = .error f :=
  bind_of_error h

theorem resolveAddress_indexedIndirect_ok {b : Byte} {p : Word} {s s1 : State}
    (h : memRead16 ((b.toNat + s.x.toNat) % 256) s = .ok (p, s1)) :
    resolveAddress (.indexedIndirect b) s = .ok (p.toNat, s1) := by
  have hwrap : (b + s.x).toNat = (b.toNat + s.x.toNat) % 256 := BitVec.toNat_add b s.x
  exact bind_of_ok (hwrap ▸ h)

theorem resolveAddress_indirectIndexed_ok {b : Byte} {p : Word} {s s1 : State}
    (h : memRead16 b.toNat s = .ok (p, s1)) :
    resolveAddress (.indirectIndexed b) s = checkedAdd16 p.toNat s.y s1 :=
  bind_of_ok h

/-- Every pointer of the zero page lies in memory, the one at 0xFF with its high byte at 0x100 included. -/
theorem memRead16_zeroPage_succeeds {a : Nat} (s : State) (h : a < 256) : ∃ p s1, memRead16 a s = .ok (p, s1) :=
  memRead16_succeeds s (by simp only [memSize]; omega)

/-- Settles O23: each mode is its 16-bit read, which a zero-page pointer always completes; at the last cell the low
byte is read and the high byte faults. -/
theorem pointerModes : Obligations.PointerModes := by
  intro s
  refine ⟨fun w p s1 => resolveAddress_indirect_ok, ?outside, ?lastCell, ?indexedIndirect, ?indirectIndexed, ?plain⟩
  case outside =>
    intro w h
    exact resolveAddress_indirect_error (memRead16_of_low_error (memRead_outOfBounds s h))
  case lastCell =>
    intro w h
    have hlow : memRead w.toNat s = .ok (cellAt s.mem w.toNat, s) := by
      simp only [memSize] at h
      apply memRead_plain
      · simp only [memSize]; omega
      · simp only [randomAddr]; omega
    exact resolveAddress_indirect_error (memRead16_of_high_error hlow (memRead_outOfBounds s h.ge))
  case indexedIndirect =>
    intro b
    obtain ⟨p, s1, h⟩ := memRead16_zeroPage_succeeds s (Nat.mod_lt (b.toNat + s.x.toNat) (by decide))
    exact ⟨p, s1, h, resolveAddress_indexedIndirect_ok h⟩
  case indirectIndexed =>
    intro b
    obtain ⟨p, s1, h⟩ := memRead16_zeroPage_succeeds s b.isLt
    exact ⟨p, s1, h, (resolveAddress_indirectIndexed_ok h).trans (checkedAdd16_eq ..)⟩
  case plain =>
    intro a h hlo hhi
    exact ⟨_, memRead16_plain s h hlo hhi, wordOf_toNat ..⟩

end Sys2Proof.Machine
end

section
namespace Sys2Proof.Machine

open Sys2Proof

/-! # The opcode table (30_encoding.md R117, R121)

An opcode's row is found among the at most sixteen rows that share its high digit, which keeps the evaluation of a
look-up short. -/

/-- The rows of the table by the high digit of their opcode. -/
def block : Nat → List Row
  | 0x0 => rows0
  | 0x1 => rows1
  | 0x2 => rows2
  | 0x3 => rows3
  | 0x4 => rows4
  | 0x5 => rows5
  | 0x6 => rows6
  | 0x7 => rows7
  | 0x8 => rows8
  | 0x9 => rows9
  | 0xA => rowsA
  | 0xB => rowsB
  | 0xC => rowsC
  | 0xD => rowsD
  | 0xE => rowsE
  | 0xF => rowsF
  | _ => []

theorem table_eq_flatMap_block : table = (List.range 16).flatMap block := by
  simp [table, block, List.range_succ]

theorem block_digit : ∀ k < 16, ∀ r ∈ block k, r.opcode.toNat / 16 = k := by
  decide

theorem lookupIn_append (rs qs : List Row) (op : Byte) :
    lookupIn (rs ++ qs) op = (lookupIn rs op).or (lookupIn qs op) := by
  induction rs with
  | nil => rfl
  | cons r rs ih =>
    rw [List.cons_append, lookupIn, lookupIn]
    split
    · rfl
    · exact ih

/-- A block holds no opcode with another high digit. -/
theorem lookupIn_block_of_ne {k : Nat} {op : Byte} (hk : k < 16) (hne : k ≠ op.toNat / 16) :
    lookupIn (block k) op = none := by
  refine Option.eq_none_iff_forall_ne_some.mpr fun e he => hne ?_
  obtain ⟨r, hr, rfl, _⟩ := lookupIn_some he
  exact (block_digit k hk r hr).symm

theorem lookupIn_flatMap_block (op : Byte) {ks : List Nat} (hks : ∀ k ∈ ks, k < 16) :
    lookupIn (ks.flatMap block) op =
      if op.toNat / 16 ∈ ks then lookupIn (block (op.toNat / 16)) op else none := by
  induction ks with
  | nil => rfl
  | cons k ks ih =>
    obtain ⟨hk, hks⟩ := List.forall_mem_cons.mp hks
    rw [List.flatMap_cons, lookupIn_append, ih hks]
    by_cases hd : k = op.toNat / 16
    · subst hd
      by_cases hmem : op.toNat / 16 ∈ ks <;> simp [hmem]
    · simp [lookupIn_block_of_ne hk hd, Ne.symm hd]

theorem lookup_eq_block (op : Byte) : lookup op = lookupIn (block (op.toNat / 16)) op := by
  have hlt := op.isLt
  rw [lookup, table_eq_flatMap_block, lookupIn_flatMap_block op fun k => List.mem_range.mp,
    if_pos (List.mem_range.mpr (by omega))]

theorem lookup_of_block {op : Byte} {e : Entry} (h : lookupIn (block (op.toNat / 16)) op = some e) :
    lookup op = some e :=
  (lookup_eq_block op).trans h

theorem lookup_brk : lookup 0x00 = some (.byteOperand fun _ => .brk) := lookup_of_block rfl

theorem lookup_halt : lookup 0xFF = some (.noOperand .halt) := lookup_of_block rfl

/-! ## Every instruction has its row -/

/-- The row of an instruction's opcode makes that instruction, from the operand bytes that the encoder writes, the low
byte first (30 R111, R113). BRK's row takes the pad as its operand byte (30 R116). -/
inductive HasRow : Instr → Prop
  | noOperand {op : Byte} {i : Instr} (hbytes : encode i = [op]) (hrow : lookup op = some (.noOperand i)) : HasRow i
  | byteOperand {op b : Byte} {f : Byte → Instr} (hbytes : encode (f b) = [op, b])
      (hrow : lookup op = some (.byteOperand f)) : HasRow (f b)
  | wordOperand {op : Byte} {w : Word} {f : Word → Instr} (hbytes : encode (f w) = [op, loByte w, hiByte w])
      (hrow : lookup op = some (.wordOperand f)) : HasRow (f w)

/-- The instructions by the length of their encoding; BRK is the one whose operand byte is not its own. -/
theorem hasRow (i : Instr) : HasRow i := by
  cases i with
  | brk => exact .byteOperand (b := 0x00) (f := fun _ => .brk) rfl lookup_brk
  | tax | tay | txa | tya | tsx | txs | inx | iny | dex | dey | aslAcc | lsrAcc | rolAcc | rorAcc | rts | pha
  | pla | php | plp | clc | sec | cli | sei | clv | cld | sed | nop | rti | halt =>
    exact .noOperand rfl (lookup_of_block rfl)
  | ldaImm b | ldaZp b | ldaZpX b | ldaIndX b | ldaIndY b | ldxImm b | ldxZp b | ldxZpY b | ldyImm b | ldyZp b
  | ldyZpX b | staZp b | staZpX b | staIndX b | staIndY b | stxZp b | stxZpY b | styZp b | styZpX b | adcImm b
  | adcZp b | adcZpX b | adcIndX b | adcIndY b | sbcImm b | sbcZp b | sbcZpX b | sbcIndX b | sbcIndY b | andImm b
  | andZp b | andZpX b | andIndX b | andIndY b | oraImm b | oraZp b | oraZpX b | oraIndX b | oraIndY b | eorImm b
  | eorZp b | eorZpX b | eorIndX b | eorIndY b | bitZp b | cmpImm b | cmpZp b | cmpZpX b | cmpIndX b | cmpIndY b
  | cpxImm b | cpxZp b | cpyImm b | cpyZp b | incZp b | incZpX b | decZp b | decZpX b | aslZp b | aslZpX b
  | lsrZp b | lsrZpX b | rolZp b | rolZpX b | rorZp b | rorZpX b | bpl b | bmi b | bvc b | bvs b | bcc b | bcs b
  | bne b | beq b =>
    exact .byteOperand rfl (lookup_of_block rfl)
  | ldaAbs w | ldaAbsX w | ldaAbsY w | ldxAbs w | ldxAbsY w | ldyAbs w | ldyAbsX w | staAbs w | staAbsX w
  | staAbsY w | stxAbs w | styAbs w | adcAbs w | adcAbsX w | adcAbsY w | sbcAbs w | sbcAbsX w | sbcAbsY w
  | andAbs w | andAbsX w | andAbsY w | oraAbs w | oraAbsX w | oraAbsY w | eorAbs w | eorAbsX w | eorAbsY w
  | bitAbs w | cmpAbs w | cmpAbsX w | cmpAbsY w | cpxAbs w | cpyAbs w | incAbs w | incAbsX w | decAbs w
  | decAbsX w | aslAbs w | aslAbsX w | lsrAbs w | lsrAbsX w | rolAbs w | rolAbsX w | rorAbs w | rorAbsX w
  | jmpAbs w | jmpInd w | jsr w =>
    exact .wordOperand rfl (lookup_of_block rfl)

/-! ## The bytes outside the table (30 R123) -/

theorem illegalOpcodes_not_in_block :
    (illegalOpcodes.all fun op => (lookupIn (block (op.toNat / 16)) op).isNone) = true := by
  decide

theorem in_block_or_illegal :
    ∀ op : Byte, ((lookupIn (block (op.toNat / 16)) op).isSome || illegalOpcodes.contains op) = true := by
  decide

theorem lookup_of_illegal {op : Byte} (h : op ∈ illegalOpcodes) : lookup op = none := by
  rw [lookup_eq_block]
  exact Option.isNone_iff_eq_none.mp (List.all_eq_true.mp illegalOpcodes_not_in_block op h)

theorem lookup_of_legal {op : Byte} (h : op ∉ illegalOpcodes) : ∃ e, lookup op = some e := by
  rw [lookup_eq_block]
  obtain hsome | hill := Bool.or_eq_true_iff.mp (in_block_or_illegal op)
  · exact Option.isSome_iff_exists.mp hsome
  · exact absurd (List.contains_iff_mem.mp hill) h

/-! # Decoding a list of bytes -/

theorem decode_noOperand {op : Byte} {i : Instr} (h : lookup op = some (.noOperand i)) (rest : List Byte) :
    decode (op :: rest) = .ok (i, rest) := by
  rw [decode, h]

theorem decode_byteOperand {op : Byte} {f : Byte → Instr} (h : lookup op = some (.byteOperand f)) (b : Byte)
    (rest : List Byte) : decode (op :: b :: rest) = .ok (f b, rest) := by
  rw [decode, h]

theorem decode_wordOperand {op : Byte} {f : Word → Instr} (h : lookup op = some (.wordOperand f)) (lo hi : Byte)
    (rest : List Byte) : decode (op :: lo :: hi :: rest) = .ok (f (wordOf hi lo), rest) := by
  rw [decode, h]

/-- What a list that decodes holds: an opcode of the table, as many operand bytes as its row asks for, and the rest. -/
theorem decode_ok {bytes rest : List Byte} {i : Instr} (h : decode bytes = .ok (i, rest)) :
    ∃ op, (lookup op = some (.noOperand i) ∧ bytes = op :: rest) ∨
      (∃ f b, lookup op = some (.byteOperand f) ∧ bytes = op :: b :: rest ∧ i = f b) ∨
      ∃ f lo hi, lookup op = some (.wordOperand f) ∧ bytes = op :: lo :: hi :: rest ∧ i = f (wordOf hi lo) := by
  cases bytes with
  | nil => cases h
  | cons op bytes =>
    refine ⟨op, ?_⟩
    cases hrow : lookup op with
    | none => rw [decode, hrow] at h; cases h
    | some e =>
      cases e with
      | noOperand j =>
        rw [decode_noOperand hrow] at h
        cases h
        exact .inl ⟨rfl, rfl⟩
      | byteOperand f =>
        match bytes with
        | [] => rw [decode, hrow] at h; cases h
        | b :: bytes =>
          rw [decode_byteOperand hrow] at h
          cases h
          exact .inr (.inl ⟨f, b, rfl, rfl, rfl⟩)
      | wordOperand f =>
        match bytes with
        | [] | [_] => rw [decode, hrow] at h; cases h
        | lo :: hi :: bytes =>
          rw [decode_wordOperand hrow] at h
          cases h
          exact .inr (.inr ⟨f, lo, hi, rfl, rfl, rfl⟩)

/-- Settles O1: the row of the instruction's opcode makes the instruction from its operand bytes. -/
theorem decodeOfEncode : Obligations.DecodeOfEncode := by
  intro i rest _
  cases hasRow i with
  | noOperand hbytes hrow =>
    rw [hbytes]
    exact decode_noOperand hrow rest
  | byteOperand hbytes hrow =>
    rw [hbytes]
    exact decode_byteOperand hrow _ rest
  | @wordOperand op w f hbytes hrow =>
    rw [hbytes]
    calc decode (op :: loByte w :: hiByte w :: rest)
        = .ok (f (wordOf (hiByte w) (loByte w)), rest) := decode_wordOperand hrow _ _ rest
      _ = .ok (f w, rest) := by rw [wordOf_hi_lo]

theorem ne_brk_of_operandCount {i : Instr} (h : i.operandCount ≠ 1) : i ≠ .brk := by
  rintro rfl
  exact h rfl

/-- Settles O2: each row's instructions are encoded as its opcode and the operand bytes, BRK's row excepted. -/
theorem encodeOfDecode : Obligations.EncodeOfDecode := by
  intro bytes i rest h
  obtain ⟨op, ⟨hrow, rfl⟩ | ⟨f, b, hrow, rfl, rfl⟩ | ⟨f, lo, hi, hrow, rfl, rfl⟩⟩ := decode_ok h
  · obtain ⟨hbytes, hcount⟩ := lookup_ok hrow
    rw [if_neg (ne_brk_of_operandCount (by rw [hcount]; decide)), hbytes]
    rfl
  · obtain ⟨_, hbytes | ⟨hbrk, hop⟩⟩ := lookup_ok hrow b
    · split
      · rename_i hbrk
        rw [hbrk] at hbytes
        cases hbytes
        exact ⟨_, rfl⟩
      · rw [hbytes]
        rfl
    · rw [if_pos hbrk]
      exact ⟨b, congrArg (· :: b :: rest) hop⟩
  · obtain ⟨hbytes, hcount⟩ := lookup_ok hrow (wordOf hi lo)
    rw [if_neg (ne_brk_of_operandCount (by rw [hcount]; decide)), hbytes, loByte_wordOf, hiByte_wordOf]
    rfl

/-- Settles O3: eight of the words are encodings, and BRK's row takes the pad 0xEA as it takes any byte. -/
theorem specWordsDecode : Obligations.SpecWordsDecode :=
  ⟨decodeOfEncode (.ldaImm 0x05) [] rfl, decodeOfEncode (.staAbs 0x0234) [] rfl,
    decodeOfEncode (.adcImm 0x03) [0xFF] rfl, decodeOfEncode (.ldaIndY 0x10) [] rfl,
    decodeOfEncode (.rorAbsX 0x0300) [] rfl, decodeOfEncode (.bne 0xFF) [] rfl,
    decodeOfEncode (.jmpInd 0x0010) [] rfl, decode_byteOperand lookup_brk 0xEA [], decodeOfEncode .halt [] rfl⟩

/-! # Fetching through the bus (30 R118) -/

/-- What `Decode()` does after the opcode byte: the table's answer decides how many operand bytes are fetched. -/
def fetchRest (op : Byte) (s : State) : Option Entry → Except Fault (Option Instr × State)
  | none => raiseUnknownOpcode op s
  | some (.noOperand i) => .ok (some i, s)
  | some (.byteOperand f) => do
    let b ← fetchOperand op s
    .ok (some (f b.1), b.2)
  | some (.wordOperand f) => do
    let lo ← fetchOperand op s
    let hi ← fetchOperand op lo.2
    .ok (some (f (wordOf hi.1 lo.1)), hi.2)

theorem fetch_eq_fetchRest {s s1 : State} {op : Byte} (h : memRead s.pc s = .ok (op, s1)) :
    fetch s = fetchRest op (s1.withPc (s.pc + 1)) (lookup op) := by
  have hpc : ¬ memSize ≤ s.pc := Nat.not_le.mpr (memRead_ok_iff.mp h).1
  unfold fetch
  rw [if_neg hpc, bind_of_ok (fetchByte_ok_iff.mpr ⟨_, h, rfl⟩)]
  cases lookup op with
  | none => rfl
  | some e => cases e <;> rfl

theorem fetchOperand_plain (op : Byte) {s : State} (h : s.pc < memSize) (hr : s.pc ≠ randomAddr) :
    fetchOperand op s = .ok (cellAt s.mem s.pc, s.withPc (s.pc + 1)) :=
  fetchOperand_ok_iff.mpr (fetchByte_ok_iff.mpr ⟨_, memRead_plain s h hr, rfl⟩)

theorem fetchOperand_truncated (op : Byte) {s : State} (h : memSize ≤ s.pc) :
    fetchOperand op s = .error (.truncatedOperand op (s.withStatus (.faulted .truncatedOperand))) :=
  fetchOperand_error_iff.mpr ⟨h, rfl⟩

theorem count_le_two (e : Entry) : e.count ≤ 2 := by
  cases e <;> simp [Entry.count]

/-- Once the table knows the opcode, only the end of memory stops the decoder. -/
theorem fetchRest_error {op : Byte} {s : State} {e : Entry} {f : Fault} (h : fetchRest op s (some e) = .error f) :
    memSize < s.pc + e.count ∧ ∃ t, f = .truncatedOperand op t := by
  cases e with
  | noOperand i => cases h
  | byteOperand g =>
    obtain h | ⟨_, _, h⟩ := bind_error_iff.mp h
    · obtain ⟨hpc, rfl⟩ := fetchOperand_error_iff.mp h
      exact ⟨Nat.lt_succ_of_le hpc, _, rfl⟩
    · cases h
  | wordOperand g =>
    obtain h | ⟨lo, hlo, h⟩ := bind_error_iff.mp h
    · obtain ⟨hpc, rfl⟩ := fetchOperand_error_iff.mp h
      exact ⟨Nat.lt_add_right 1 (Nat.lt_succ_of_le hpc), _, rfl⟩
    · obtain ⟨_, hlopc, _⟩ := fetchByte_frame (fetchOperand_ok_iff.mp hlo)
      obtain h | ⟨_, _, h⟩ := bind_error_iff.mp h
      · obtain ⟨hpc, rfl⟩ := fetchOperand_error_iff.mp h
        rw [hlopc] at hpc
        exact ⟨Nat.lt_succ_of_le hpc, _, rfl⟩
      · cases h

/-- Operand bytes that end past memory: the decoder stops with PC at the end of memory (30 R120). -/
theorem fetchRest_truncated (op : Byte) {s : State} {e : Entry} (hpc : s.pc ≤ memSize) (hr : s.pc ≠ randomAddr)
    (h : memSize < s.pc + e.count) :
    fetchRest op s (some e) =
      .error (.truncatedOperand op ((s.withPc memSize).withStatus (.faulted .truncatedOperand))) := by
  have hend (hle : memSize ≤ s.pc) : s.withPc memSize = s := by
    rw [Nat.le_antisymm hle hpc]
    rfl
  cases e with
  | noOperand i => exact absurd h (Nat.not_lt.mpr hpc)
  | byteOperand f =>
    have hle : memSize ≤ s.pc := Nat.le_of_lt_succ h
    rw [hend hle]
    exact bind_of_error (fetchOperand_truncated op hle)
  | wordOperand f =>
    by_cases hle : memSize ≤ s.pc
    · rw [hend hle]
      exact bind_of_error (fetchOperand_truncated op hle)
    · have hlt : s.pc < memSize := Nat.not_le.mp hle
      have hone : s.pc + 1 = memSize := Nat.le_antisymm hlt (Nat.le_of_lt_succ h)
      have hhi : fetchOperand op (s.withPc (s.pc + 1)) = _ := fetchOperand_truncated op (Nat.le_of_eq hone.symm)
      rw [hone] at hhi
      refine (bind_of_ok (fetchOperand_plain op hlt hr)).trans ?_
      rw [hone]
      exact bind_of_error hhi

/-! # The step -/

theorem step_of_fetch_error {s : State} {f : Fault} (hrun : s.status = .running) (h : fetch s = .error f) :
    step s = .fault f := by
  unfold step
  rw [hrun]
  dsimp only
  rw [h]

theorem step_of_fetch_ok {s s1 : State} {i : Instr} (hrun : s.status = .running) (h : fetch s = .ok (some i, s1)) :
    step s = afterExec (exec i s1) := by
  unfold step
  rw [hrun]
  dsimp only
  rw [h]

theorem exec_fault {i : Instr} {s : State} {f : Fault} (h : exec i s = .fault f) : BodyFault s f :=
  Shape.run_fault (exec_eq i s ▸ h)

/-- A fault that no instruction's body raises was raised by the decoder. -/
theorem fetch_error_of_step {s : State} {f : Fault} (h : step s = .fault f) (hf : ∀ t, ¬ BodyFault t f) :
    fetch s = .error f := by
  obtain ⟨_, h | ⟨i, s1, _, he⟩⟩ := step_fault h
  · exact h
  · exact absurd (exec_fault he) (hf s1)

/-- Settles O4: the decoder raises `UnknownOpcode` where the table has no row, and `TruncatedOperand` at most where it
has one. -/
theorem unknownOpcodeFaults : Obligations.UnknownOpcodeFaults := by
  refine ⟨rfl, fun s s1 op hrun hread => ⟨fun hop => ?_, fun hop q t hstep => ?_⟩⟩
  · refine step_of_fetch_error hrun ?_
    rw [fetch_eq_fetchRest hread, lookup_of_illegal hop]
    rfl
  · obtain ⟨e, hrow⟩ := lookup_of_legal hop
    have hfetch := fetch_error_of_step hstep (fun _ hbody => nomatch hbody)
    rw [fetch_eq_fetchRest hread, hrow] at hfetch
    obtain ⟨_, _, hf⟩ := fetchRest_error hfetch
    cases hf

/-- An instruction cut off by the end of memory lies past the random source, so its opcode is the cell's. -/
theorem memRead_of_truncated {s : State} {e : Entry} (hpc : s.pc < memSize) (h : memSize < s.pc + 1 + e.count) :
    memRead s.pc s = .ok (cellAt s.mem s.pc, s) ∧ randomAddr < s.pc := by
  have hcount := count_le_two e
  have hr : randomAddr < s.pc := by
    unfold memSize at h
    unfold randomAddr
    omega
  exact ⟨memRead_plain s hpc (Nat.ne_of_gt hr), hr⟩

/-- Settles O5: the decoder stops at the end of memory exactly where the row asks for more bytes than are left. -/
theorem truncatedOperandFaults : Obligations.TruncatedOperandFaults := by
  refine fun s hrun hpc => ⟨fun e hrow hcut => ?_, fun op t hstep => ?_⟩
  · obtain ⟨hread, hr⟩ := memRead_of_truncated hpc hcut
    refine step_of_fetch_error hrun ?_
    rw [fetch_eq_fetchRest hread, hrow]
    exact fetchRest_truncated _ hpc (Nat.ne_of_gt (Nat.lt_succ_of_lt hr)) hcut
  · have hfetch := fetch_error_of_step hstep (fun _ hbody => nomatch hbody)
    obtain ⟨v, s1, hread⟩ := memRead_succeeds s hpc
    rw [fetch_eq_fetchRest hread] at hfetch
    cases hrow : lookup v with
    | none => rw [hrow] at hfetch; cases hfetch
    | some e =>
      rw [hrow] at hfetch
      obtain ⟨hcut, _, hf⟩ := fetchRest_error hfetch
      cases hf
      obtain ⟨hplain, _⟩ := memRead_of_truncated hpc hcut
      rw [hplain] at hread
      cases hread
      exact ⟨rfl, e, hrow, hcut⟩

/-! ## Bytes that lie in memory off `RANDOM_ADDR` -/

theorem fetch_noOperand {s : State} {i : Instr} (hrow : lookup (cellAt s.mem s.pc) = some (.noOperand i))
    (hpc : s.pc + 1 ≤ memSize) (hr : s.pc ≠ randomAddr) : fetch s = .ok (some i, s.withPc (s.pc + 1)) := by
  rw [fetch_eq_fetchRest (memRead_plain s hpc hr), hrow]
  rfl

theorem fetch_byteOperand {s : State} {f : Byte → Instr} (hrow : lookup (cellAt s.mem s.pc) = some (.byteOperand f))
    (hpc : s.pc + 2 ≤ memSize) (hr : s.pc ≠ randomAddr) (hr1 : s.pc + 1 ≠ randomAddr) :
    fetch s = .ok (some (f (cellAt s.mem (s.pc + 1))), s.withPc (s.pc + 2)) := by
  rw [fetch_eq_fetchRest (memRead_plain s (by omega) hr), hrow]
  exact bind_of_ok (fetchOperand_plain (s := s.withPc (s.pc + 1)) _ hpc hr1)

theorem fetch_wordOperand {s : State} {f : Word → Instr} (hrow : lookup (cellAt s.mem s.pc) = some (.wordOperand f))
    (hpc : s.pc + 3 ≤ memSize) (hr : s.pc ≠ randomAddr) (hr1 : s.pc + 1 ≠ randomAddr) (hr2 : s.pc + 2 ≠ randomAddr) :
    fetch s = .ok (some (f (wordOf (cellAt s.mem (s.pc + 2)) (cellAt s.mem (s.pc + 1)))), s.withPc (s.pc + 3)) := by
  have hlt : s.pc + 1 < memSize := by omega
  have hlo : fetchOperand (cellAt s.mem s.pc) (s.withPc (s.pc + 1)) =
      .ok (cellAt s.mem (s.pc + 1), s.withPc (s.pc + 2)) := fetchOperand_plain _ hlt hr1
  have hhi : fetchOperand (cellAt s.mem s.pc) (s.withPc (s.pc + 2)) =
      .ok (cellAt s.mem (s.pc + 2), s.withPc (s.pc + 3)) := fetchOperand_plain _ hpc hr2
  rw [fetch_eq_fetchRest (memRead_plain s (by omega) hr), hrow, fetchRest, bind_of_ok hlo, bind_of_ok hhi]

/-- Settles O8: by the row of the instruction's opcode, every byte of it read from its cell. -/
theorem encodedInstructionIsFetched : Obligations.EncodedInstructionIsFetched := by
  refine ⟨fun s i hpc hcells => ?_, fun s hpc hr hr1 hop => fetch_byteOperand (hop ▸ lookup_brk) hpc hr hr1⟩
  cases hasRow i with
  | @noOperand op _ hbytes hrow =>
    rw [hbytes] at hpc hcells ⊢
    obtain ⟨hr, hop⟩ : s.pc ≠ randomAddr ∧ cellAt s.mem s.pc = op := hcells 0 (by simp)
    exact fetch_noOperand (hop ▸ hrow) hpc hr
  | @byteOperand op b f hbytes hrow =>
    rw [hbytes] at hpc hcells ⊢
    obtain ⟨hr, hop⟩ : s.pc ≠ randomAddr ∧ cellAt s.mem s.pc = op := hcells 0 (by simp)
    obtain ⟨hr1, hb⟩ : s.pc + 1 ≠ randomAddr ∧ cellAt s.mem (s.pc + 1) = b := hcells 1 (by simp)
    rw [fetch_byteOperand (hop ▸ hrow) hpc hr hr1, hb]
    rfl
  | @wordOperand op w f hbytes hrow =>
    rw [hbytes] at hpc hcells ⊢
    obtain ⟨hr, hop⟩ : s.pc ≠ randomAddr ∧ cellAt s.mem s.pc = op := hcells 0 (by simp)
    obtain ⟨hr1, hlo⟩ : s.pc + 1 ≠ randomAddr ∧ cellAt s.mem (s.pc + 1) = loByte w := hcells 1 (by simp)
    obtain ⟨hr2, hhi⟩ : s.pc + 2 ≠ randomAddr ∧ cellAt s.mem (s.pc + 2) = hiByte w := hcells 2 (by simp)
    rw [fetch_wordOperand (hop ▸ hrow) hpc hr hr1 hr2, hlo, hhi, wordOf_hi_lo]
    rfl

/-- Settles O47: the row of 0xFF is HALT's, and no host window follows a stopped machine. -/
theorem haltStep : Obligations.HaltStep := by
  refine ⟨fun s => rfl, fun s s1 hrun hread => ?_⟩
  have hfetch : fetch s = .ok (some .halt, s1.withPc (s.pc + 1)) := by
    rw [fetch_eq_fetchRest hread, lookup_halt]
    rfl
  rw [step_of_fetch_ok hrun hfetch]
  rfl

/-! # The return from the software interrupt -/

theorem exec_rti (s : State) : exec .rti s = finish (returnFromInterrupt s) := rfl

@[simp] theorem interruptEntered_sp (s : State) : (interruptEntered s).sp = s.sp - 3 := by
  simp only [interruptEntered, State.withP_sp, afterPush_sp, afterPush16_sp]
  bv_omega

/-- The three slots that entering the interrupt writes (60 R303), each under the name of its own stack pointer. -/
theorem cellAt_interruptEntered {s : State} (h : 3 ≤ s.sp.toNat) :
    cellAt (interruptEntered s).mem (0x100 + s.sp.toNat) = hiByte (pcWord s) ∧
      cellAt (interruptEntered s).mem (0x100 + s.sp.toNat - 1) = loByte (pcWord s) ∧
      cellAt (interruptEntered s).mem (0x100 + s.sp.toNat - 2) = flagsByte s.p ||| brkOverride := by
  have h0 : stackAddr s.sp = 0x100 + s.sp.toNat := rfl
  have h1 : stackAddr (s.sp - 1) = 0x100 + s.sp.toNat - 1 := stackAddr_sub (by bv_omega)
  have h2 : stackAddr (s.sp - 2) = 0x100 + s.sp.toNat - 2 := stackAddr_sub (by bv_omega)
  unfold interruptEntered
  rw [State.withP_mem, afterPush_mem, afterPush16_sp, afterPush16, afterPush_mem, afterPush_sp, afterPush_mem,
    h0, h1, h2]
  refine ⟨?_, ?_, cellAt_setCell_same ..⟩
  · rw [cellAt_setCell_other _ _ (by omega), cellAt_setCell_other _ _ (by omega), cellAt_setCell_same]
  · rw [cellAt_setCell_other _ _ (by omega), cellAt_setCell_same]

/-- The flag byte that BRK pushes is loaded as the flags of before with BREAK set (10 R49, R50). -/
theorem flagsFromByte_or_brkOverride (p : Flags) :
    flagsFromByte (flagsByte p ||| brkOverride) = { p with b := true } := by
  obtain ⟨c, z, i, d, b, v, n⟩ := p
  revert c z i d b v n
  decide

/-- The return from an interrupt in the words of 45 R250: the flags are the first byte above SP, then the target, the
low byte first. -/
theorem returnFromInterrupt_eq {s : State} (h : s.sp.toNat ≤ 252) :
    returnFromInterrupt s =
      goto (wordOf (cellAt s.mem (0x100 + s.sp.toNat + 3)) (cellAt s.mem (0x100 + s.sp.toNat + 2))).toNat
        ((s.withSp (s.sp + 3)).withP (flagsFromByte (cellAt s.mem (0x100 + s.sp.toNat + 1)))) := by
  have hsp1 : (s.sp + 1).toNat = s.sp.toNat + 1 := by bv_omega
  have hsp3 : s.sp + 1 + 2 = s.sp + 3 := by bv_omega
  unfold returnFromInterrupt
  rw [bind_of_ok (popFlags_ok s (by bv_omega)), bind_of_ok (pop16_ok _ (by
    rw [State.withP_sp, State.withSp_sp]
    omega))]
  simp only [State.withP_sp, State.withSp_sp, State.withP_mem, State.withSp_mem, hsp1, hsp3]
  rfl

theorem pcWord_toNat {s : State} (h : s.pc < memSize) : (pcWord s).toNat = s.pc := by
  unfold memSize at h
  rw [pcWord, BitVec.toNat_ofNat]
  omega

/-- The three pops find what entering the interrupt pushed, in a state that kept the memory and the stack pointer. -/
theorem returnFromInterrupt_of_entered {s t : State} (hsp : 3 ≤ s.sp.toNat) (hpc : s.pc < memSize)
    (hmem : t.mem = (interruptEntered s).mem) (htsp : t.sp = s.sp - 3) :
    returnFromInterrupt t = .ok (wentTo s.pc ((t.withSp s.sp).withP { s.p with b := true })) := by
  obtain ⟨hhi, hlo, hflags⟩ := cellAt_interruptEntered hsp
  have hslot : t.sp.toNat + 3 = s.sp.toNat := by rw [htsp]; bv_omega
  have hslot1 : 0x100 + t.sp.toNat + 1 = 0x100 + s.sp.toNat - 2 := by omega
  have hslot2 : 0x100 + t.sp.toNat + 2 = 0x100 + s.sp.toNat - 1 := by omega
  have hslot3 : 0x100 + t.sp.toNat + 3 = 0x100 + s.sp.toNat := by omega
  have hback : t.sp + 3 = s.sp := by rw [htsp]; bv_omega
  have hle : t.sp.toNat ≤ 252 := by bv_omega
  rw [returnFromInterrupt_eq hle, hslot1, hslot2, hslot3, hback, hmem, hhi, hlo, hflags, wordOf_hi_lo,
    flagsFromByte_or_brkOverride, pcWord_toNat hpc, goto_ok _ _ hpc]

/-- Settles O50: the vector's read and the handler keep the memory and the stack pointer that entering the interrupt
left, so RTI pops what BRK pushed. -/
theorem brkThenRti : Obligations.BrkThenRti := by
  intro s t a x y pc p hbrk hpc
  obtain ⟨hsp, target, s1, hs1, _, rfl⟩ := takeInterrupt_ok (finish_next_iff.mp hbrk)
  obtain ⟨ds, n, rfl⟩ := hs1.exists_eq
  have hret := returnFromInterrupt_of_entered hsp hpc
    (t := { wentTo target (((interruptEntered s).withDraws ds).withDrawCount n) with
      a := a, x := x, y := y, pc := pc, p := p }) rfl (interruptEntered_sp s)
  refine ⟨_, (exec_rti _).trans (congrArg finish hret), ?_⟩
  exact ⟨rfl, rfl, rfl, rfl, rfl, rfl, rfl⟩

end Sys2Proof.Machine
end

section
namespace Sys2Proof.Machine

open Sys2Proof

/-! # The addressing modes that read no pointer (40_addressing_modes.md R143 to R146)

The sums they make, and the forms whose operand always lies in memory. -/

/-! ## Sums that stay below 0xFFFF -/

theorem toNat_add_toNat_le (b d : Byte) : b.toNat + d.toNat ≤ 0x1FE := by
  omega

theorem checkedAdd16_zeroPage (b d : Byte) (s : State) : checkedAdd16 b.toNat d s = .ok (b.toNat + d.toNat, s) :=
  checkedAdd16_ok_iff.mpr ⟨(toNat_add_toNat_le b d).trans (by decide), rfl⟩

/-- Settles O20: two bytes add up to no more than 0x1FE, so the checked addition raises nothing. -/
theorem zeroPageModes : Obligations.ZeroPageModes := by
  intro s b
  exact ⟨rfl, checkedAdd16_zeroPage b s.x s, checkedAdd16_zeroPage b s.y s, toNat_add_toNat_le b s.x,
    toNat_add_toNat_le b s.y, by decide⟩

/-- Settles O21: an absolute address with an index is the checked addition. -/
theorem absoluteModes : Obligations.AbsoluteModes := by
  intro s w
  exact ⟨rfl, checkedAdd16_eq w.toNat s.x s, checkedAdd16_eq w.toNat s.y s⟩

/-! ## The signed displacement -/

theorem checkedAddSigned16_eq (a : Nat) (d : Byte) (s : State) :
    checkedAddSigned16 a d s =
      if 0 ≤ (a : Int) + d.toInt ∧ (a : Int) + d.toInt ≤ 0xFFFF then .ok (((a : Int) + d.toInt).toNat, s)
      else .error (.addressCalculation (s.withStatus (.faulted .addressCalculation))) := by
  split
  case isTrue h => exact checkedAddSigned16_ok_iff.mpr ⟨h, rfl⟩
  case isFalse h => exact checkedAddSigned16_error_iff.mpr ⟨h, rfl⟩

theorem byte_toInt (b : Byte) : b.toInt = if b.toNat < 128 then (b.toNat : Int) else b.toNat - 256 := by
  rw [BitVec.toInt_eq_toNat_cond]
  split <;> split <;> omega

/-- Settles O22: the checked signed addition to ISPC, with the byte's value written out. -/
theorem relativeMode : Obligations.RelativeMode := by
  intro s b t
  have ht : t = s.ispc + b.toInt := by rw [byte_toInt]
  rw [ht]
  exact checkedAddSigned16_eq s.ispc b s

/-! ## Forms that never fault -/

theorem safe_next (t : State) : Safe (.next t) := by
  intro f h
  cases h

theorem readThen_safe {f : Byte → State → State} {m : OperandMode} {s : State} {r : Byte × State}
    (h : readOperand m s = .ok r) : Safe (readThen f m s) := by
  intro e he
  rw [readThen_fault_iff.mp he] at h
  cases h

theorem storeThen_safe {v : Byte} {m : AddrMode} {s s1 : State} {a : Nat} (h : resolveAddress m s = .ok (a, s1))
    (ha : a < memSize) : Safe (storeThen v m s) := by
  have hnext := storeThen_next_iff (v := v).mpr ⟨_, h, ha, rfl⟩
  rw [hnext]
  exact safe_next _

theorem modifyThen_safe {f : Byte → Flags → Byte × Flags} {m : AddrMode} {s s1 : State} {a : Nat}
    (h : resolveAddress m s = .ok (a, s1)) (ha : a < memSize) : Safe (modifyThen f m s) := by
  obtain ⟨v, s2, hv⟩ := memRead_succeeds s1 ha
  have hnext := modifyThen_next_iff (f := f).mpr ⟨_, _, h, hv, rfl⟩
  rw [hnext]
  exact safe_next _

/-- A zero-page address lies in memory, whatever the index (40 R143). -/
theorem resolveAddress_zeroPage_inMemory (b : Byte) (idx : Index) (s : State) :
    ∃ a, a < memSize ∧ resolveAddress (.zeroPage b idx) s = .ok (a, s) := by
  obtain ⟨hnone, hx, hy, hlex, hley, hmem⟩ := zeroPageModes s b
  cases idx with
  | none => exact ⟨_, by omega, hnone⟩
  | x => exact ⟨_, by omega, hx⟩
  | y => exact ⟨_, by omega, hy⟩

theorem readOperand_zeroPage_succeeds (b : Byte) (idx : Index) (s : State) :
    ∃ r, readOperand (.address (.zeroPage b idx)) s = .ok r := by
  obtain ⟨a, ha, hres⟩ := resolveAddress_zeroPage_inMemory b idx s
  obtain ⟨v, s1, hv⟩ := memRead_succeeds s ha
  exact ⟨_, (readOperand_of_resolveAddress_ok hres).trans hv⟩

/-- HALT only stops the machine; the other one-byte forms off the stack change registers and advance. -/
theorem exec_safe_of_implied {i : Instr} (s : State) (hm : i.mode = .implied) (hpush : i.mnemonic.pushes = false)
    (hpop : i.mnemonic.pops = false) : Safe (exec i s) := by
  rw [exec_eq, hm]
  by_cases hhalt : i.mnemonic = .halt
  · rw [hhalt]
    exact safe_next _
  · have hshape : shapeOf i.mnemonic .implied = .register i.mnemonic := by simp [shapeOf, hpush, hpop, hhalt]
    rw [hshape]
    exact safe_next _

theorem exec_safe_of_accumulator {i : Instr} (s : State) (hm : i.mode = .accumulator) : Safe (exec i s) := by
  rw [exec_eq, hm]
  exact safe_next _

theorem exec_safe_of_immediate {i : Instr} {b : Byte} (s : State) (hm : i.mode = .operand (.immediate b)) :
    Safe (exec i s) := by
  rw [exec_eq, hm]
  exact readThen_safe (readOperand_immediate b s)

theorem mode_of_stackOrHalt : ∀ i ∈ [Instr.pha, .pla, .php, .plp, .rts, .brk, .rti, .halt], i.mode = .implied := by
  decide

/-- JMP has an absolute and an indirect form alone. -/
theorem instr_of_mnemonic_jmp {i : Instr} (h : i.mnemonic = .jmp) : ∃ w, i = .jmpAbs w ∨ i = .jmpInd w := by
  cases i with
  | jmpAbs w => exact ⟨w, .inl rfl⟩
  | jmpInd w => exact ⟨w, .inr rfl⟩
  | _ => cases h

/-- The zero-page forms read, store or modify; the other shapes have other modes. -/
theorem exec_safe_of_zeroPage {i : Instr} {b : Byte} {idx : Index} (s : State)
    (hm : i.mode = .operand (.address (.zeroPage b idx))) : Safe (exec i s) := by
  obtain ⟨a, ha, hres⟩ := resolveAddress_zeroPage_inMemory b idx s
  rw [exec_eq]
  have hshape := hasShape i
  generalize shapeOf i.mnemonic i.mode = sh at hshape ⊢
  cases hshape with
  | read m hm' =>
    cases hm.symm.trans hm'
    obtain ⟨r, hr⟩ := readOperand_zeroPage_succeeds b idx s
    exact readThen_safe hr
  | store m hm' =>
    cases hm.symm.trans hm'
    exact storeThen_safe hres ha
  | modify m hm' =>
    cases hm.symm.trans hm'
    exact modifyThen_safe hres ha
  | shiftA hm' | register hm' | branch _ _ _ hm' => cases hm.symm.trans hm'
  | jump m _ hjmp =>
    obtain ⟨w, rfl | rfl⟩ := instr_of_mnemonic_jmp hjmp <;> cases hm
  | call w hi =>
    subst hi
    cases hm
  | other hi => cases hm.symm.trans (mode_of_stackOrHalt i hi)

/-- Settles O58: a register form reads nothing, an immediate is its own operand, and a zero-page address lies in
memory. -/
theorem formsThatNeverFault : Obligations.FormsThatNeverFault := by
  rintro i s (⟨hm, hpush, hpop⟩ | hm | ⟨b, hm⟩ | ⟨b, idx, hm⟩)
  · exact exec_safe_of_implied s hm hpush hpop
  · exact exec_safe_of_accumulator s hm
  · exact exec_safe_of_immediate s hm
  · exact exec_safe_of_zeroPage s hm

end Sys2Proof.Machine
end

section
namespace Sys2Proof.Machine

open Sys2Proof

/-! # Loads, stores and transfers (41_load_store_transfer.md), and the faults of an operand access

What an instruction answers by its shape, and what each register write and store leaves the machine as. -/

/-! ## The answers of the shapes -/

theorem exec_read {i : Instr} {m : OperandMode} (s : State) (hm : i.mode = .operand m)
    (hr : i.mnemonic.readsOperand = true) : exec i s = readThen (readMeaning i.mnemonic) m s := by
  have hshape : shapeOf i.mnemonic (.operand m) = .read i.mnemonic m := by
    cases m with
    | immediate b => rfl
    | address a => exact if_pos hr
  rw [exec_eq, hm, hshape]
  rfl

theorem exec_of_readOperand_ok {i : Instr} {m : OperandMode} {s s1 : State} {v : Byte} (hm : i.mode = .operand m)
    (hr : i.mnemonic.readsOperand = true) (h : readOperand m s = .ok (v, s1)) :
    exec i s = .next (advance (readMeaning i.mnemonic v s1)) :=
  (exec_read s hm hr).trans (readThen_next_iff.mpr ⟨_, h, rfl⟩)

theorem exec_of_readOperand_error {i : Instr} {m : OperandMode} {s : State} {f : Fault} (hm : i.mode = .operand m)
    (hr : i.mnemonic.readsOperand = true) (h : readOperand m s = .error f) : exec i s = .fault f :=
  (exec_read s hm hr).trans (readThen_fault_iff.mpr h)

theorem readsOperand_of_stores {mn : Mnemonic} : mn.stores = true → mn.readsOperand = false := by
  cases mn <;> decide

theorem exec_store {i : Instr} {m : AddrMode} (s : State) (hm : i.mode = .operand (.address m))
    (hst : i.mnemonic.stores = true) : exec i s = storeThen (storedByte i.mnemonic s) m s := by
  have hshape : shapeOf i.mnemonic (.operand (.address m)) = .store i.mnemonic m := by
    simp [shapeOf, readsOperand_of_stores hst, hst]
  rw [exec_eq, hm, hshape]
  rfl

theorem exec_register {i : Instr} (s : State) (hm : i.mode = .implied) (hpush : i.mnemonic.pushes = false)
    (hpop : i.mnemonic.pops = false) (hhalt : i.mnemonic ≠ .halt) :
    exec i s = .next (advance (registerMeaning i.mnemonic s)) := by
  have hshape : shapeOf i.mnemonic .implied = .register i.mnemonic := by simp [shapeOf, hpush, hpop, hhalt]
  rw [exec_eq, hm, hshape]
  rfl

/-! ## Writing a register and advancing -/

/-- Z and N of a byte, in the spec's words (10 R40). -/
theorem setZN_eq (p : Flags) (v : Byte) :
    p.setZN v = { p with z := decide (v = 0), n := decide (128 ≤ v.toNat) } := by
  have hn : v.getLsbD 7 = decide (128 ≤ v.toNat) := BitVec.msb_eq_decide v
  rw [Flags.setZN, hn]
  rfl

theorem advance_setA (v : Byte) (s : State) :
    advance (setA v s) =
      { s with a := v, p := { s.p with z := decide (v = 0), n := decide (128 ≤ v.toNat) }, ispc := s.pc } := by
  rw [setA, setZN_eq]
  rfl

theorem advance_setX (v : Byte) (s : State) :
    advance (setX v s) =
      { s with x := v, p := { s.p with z := decide (v = 0), n := decide (128 ≤ v.toNat) }, ispc := s.pc } := by
  rw [setX, setZN_eq]
  rfl

theorem advance_setY (v : Byte) (s : State) :
    advance (setY v s) =
      { s with y := v, p := { s.p with z := decide (v = 0), n := decide (128 ≤ v.toNat) }, ispc := s.pc } := by
  rw [setY, setZN_eq]
  rfl

/-! ## Loads -/

theorem readsOperand_of_load {mn : Mnemonic} : mn ∈ [.lda, .ldx, .ldy] → mn.readsOperand = true := by
  cases mn <;> decide

/-- Settles O25: a load reads its operand, writes its register and advances; a fault is the operand's. -/
theorem loadResults : Obligations.LoadResults := by
  intro i m s s1 v hm
  refine ⟨fun h => ⟨?lda, ?ldx, ?ldy⟩, fun f h hload => ?fault⟩
  case lda =>
    intro hmn
    rw [exec_of_readOperand_ok hm (readsOperand_of_load (by simp [hmn])) h, hmn]
    exact congrArg _ (advance_setA v s1)
  case ldx =>
    intro hmn
    rw [exec_of_readOperand_ok hm (readsOperand_of_load (by simp [hmn])) h, hmn]
    exact congrArg _ (advance_setX v s1)
  case ldy =>
    intro hmn
    rw [exec_of_readOperand_ok hm (readsOperand_of_load (by simp [hmn])) h, hmn]
    exact congrArg _ (advance_setY v s1)
  case fault =>
    exact ⟨exec_of_readOperand_error hm (readsOperand_of_load hload) h, (readOperand_error h).same⟩

/-! ## Stores -/

/-- The three stores, and the register each one stores. -/
theorem stores_and_storedByte {mn : Mnemonic} {s : State} {v : Byte}
    (h : (mn = .sta ∧ v = s.a) ∨ (mn = .stx ∧ v = s.x) ∨ (mn = .sty ∧ v = s.y)) :
    mn.stores = true ∧ storedByte mn s = v := by
  obtain ⟨rfl, rfl⟩ | ⟨rfl, rfl⟩ | ⟨rfl, rfl⟩ := h <;> exact ⟨rfl, rfl⟩

/-- Settles O26: a store resolves its address, writes its register's byte there and advances; a fault is the
resolver's or the write's. -/
theorem storeResults : Obligations.StoreResults := by
  intro i m s hm v hv
  obtain ⟨hst, hbyte⟩ := stores_and_storedByte hv
  rw [exec_store s hm hst, hbyte]
  refine ⟨fun a s1 h ha => ?inMemory, fun a s1 h ha => ?outside, fun f h => ?unresolved⟩
  case inMemory => exact storeThen_next_iff.mpr ⟨_, h, ha, rfl⟩
  case outside => exact storeThen_fault_iff.mpr (.inr ⟨_, h, ha, rfl⟩)
  case unresolved => exact ⟨storeThen_fault_iff.mpr (.inl h), (resolveAddress_error h).same⟩

/-! ## Transfers -/

/-- Settles O27: a transfer is a register form, whose meaning writes the one register. -/
theorem transferResults : Obligations.TransferResults := by
  intro s zn
  refine ⟨?tax, ?tay, ?txa, ?tya, ?tsx, ?txs⟩
  case tax => exact (exec_register s rfl rfl rfl (by decide)).trans (congrArg _ (advance_setX s.a s))
  case tay => exact (exec_register s rfl rfl rfl (by decide)).trans (congrArg _ (advance_setY s.a s))
  case txa => exact (exec_register s rfl rfl rfl (by decide)).trans (congrArg _ (advance_setA s.x s))
  case tya => exact (exec_register s rfl rfl rfl (by decide)).trans (congrArg _ (advance_setA s.y s))
  case tsx => exact (exec_register s rfl rfl rfl (by decide)).trans (congrArg _ (advance_setX s.sp s))
  case txs => exact exec_register s rfl rfl rfl (by decide)

/-! ## Faults of an operand access -/

theorem OperandFault.kind_cases {s : State} {f : Fault} (h : OperandFault s f) :
    (∃ a, memSize ≤ a ∧ f = .outOfBounds a f.state) ∨ f = .addressCalculation f.state := by
  obtain ⟨t, _, ⟨a, ha, rfl⟩ | rfl⟩ := h
  · exact .inl ⟨a, ha, rfl⟩
  · exact .inr rfl

theorem readThen_operandFault {g : Byte → State → State} {m : OperandMode} {s : State} {f : Fault}
    (h : readThen g m s = .fault f) : OperandFault s f :=
  readOperand_error (readThen_fault_iff.mp h)

theorem storeThen_operandFault {v : Byte} {m : AddrMode} {s : State} {f : Fault} (h : storeThen v m s = .fault f) :
    OperandFault s f := by
  obtain hres | ⟨⟨a, s1⟩, hres, ha, rfl⟩ := storeThen_fault_iff.mp h
  · exact resolveAddress_error hres
  · exact ⟨s1, resolveAddress_same hres, .inl ⟨a, ha, rfl⟩⟩

theorem modifyThen_operandFault {g : Byte → Flags → Byte × Flags} {m : AddrMode} {s : State} {f : Fault}
    (h : modifyThen g m s = .fault f) : OperandFault s f := by
  obtain hres | ⟨a, hres, hread⟩ := modifyThen_fault_iff.mp h
  · exact resolveAddress_error hres
  · exact (memRead_operandFault hread).trans (resolveAddress_same hres)

/-- An instruction with an operand access commits by `Advance`: it is no branch, jump or return. -/
theorem justAdvances_of_access {mn : Mnemonic}
    (h : mn.readsOperand = true ∨ mn.stores = true ∨ mn.modifies = true) : justAdvances mn = true := by
  obtain h | h | h := h
  · exact justAdvances_of_readsOperand h
  · exact justAdvances_of_stores h
  · exact justAdvances_of_modifies h

theorem no_access_of_stackOrHalt : ∀ i ∈ [Instr.pha, .pla, .php, .plp, .rts, .brk, .rti, .halt],
    ¬(i.mnemonic.readsOperand = true ∨ i.mnemonic.stores = true ∨ i.mnemonic.modifies = true) := by
  decide

/-- The shapes that read, store or modify raise operand faults alone; the accumulator form of a shift raises none, and
the other shapes belong to instructions without an operand access. -/
theorem exec_operandFault {i : Instr} {s : State} {f : Fault}
    (haccess : i.mnemonic.readsOperand = true ∨ i.mnemonic.stores = true ∨ i.mnemonic.modifies = true)
    (h : exec i s = .fault f) : OperandFault s f := by
  obtain ⟨_, hgoes, hbranch⟩ := justAdvances_iff.mp (justAdvances_of_access haccess)
  rw [exec_eq] at h
  have hshape := hasShape i
  generalize shapeOf i.mnemonic i.mode = sh at h hshape
  cases hshape with
  | read => exact readThen_operandFault h
  | store => exact storeThen_operandFault h
  | modify => exact modifyThen_operandFault h
  | shiftA | register => cases h
  | branch flag want b _ htest => cases hbranch.symm.trans htest
  | jump m _ hjmp =>
    rw [hjmp] at hgoes
    cases hgoes
  | call w hi =>
    subst hi
    cases hgoes
  | other hi => exact absurd haccess (no_access_of_stackOrHalt i hi)

/-- Settles O57: such a fault is an operand fault, and those keep all but the draws and the status. -/
theorem operandFaultChangesNothing : Obligations.OperandFaultChangesNothing := by
  intro i s f haccess h
  have hfault := exec_operandFault haccess h
  exact ⟨hfault.same, hfault.kind_cases⟩

end Sys2Proof.Machine
end

section
namespace Sys2Proof.Machine

open Sys2Proof

/-! # Arithmetic and logic (42_arith_logic.md)

The ALU's functions as integer arithmetic, then what each instruction of the chapter answers. -/

/-! ## Bits of a byte as bounds on its value -/

theorem getLsbD_seven (v : Byte) : v.getLsbD 7 = decide (128 ≤ v.toNat) := BitVec.msb_eq_decide v

theorem getLsbD_six (v : Byte) : v.getLsbD 6 = decide (64 ≤ v.toNat % 128) := by
  have hbit : v.getLsbD 6 = decide (v.toNat / 2 ^ 6 % 2 = 1) := Nat.testBit_eq_decide_div_mod_eq
  rw [hbit, decide_eq_decide]
  omega

@[simp] theorem bitByte_toNat (b : Bool) : (bitByte b).toNat = b.toNat := by
  cases b <;> rfl

theorem bitByte_not_toNat (b : Bool) : (bitByte (!b)).toNat = 1 - b.toNat := by
  cases b <;> rfl

/-! ## The two chained additions of ADC and subtractions of SBC -/

/-- ADC's result is the sum modulo 256, its carry says that the sum passed 255 and its overflow that the signed sum left
-128 .. 127 (42 R181). -/
theorem adcAlu_eq {a v : Byte} {p : Flags} {sum : Nat} {signed : Int} (hsum : sum = a.toNat + v.toNat + p.c.toNat)
    (hsigned : signed = a.toInt + v.toInt + p.c.toNat) :
    adcAlu a v p = (BitVec.ofNat 8 sum,
      { p with
        c := decide (255 < sum), v := decide (signed < -128 ∨ 127 < signed)
        z := decide (sum % 256 = 0), n := decide (128 ≤ sum % 256) }) := by
  have hc := p.c.toNat_le
  have hr : (a + v + bitByte p.c).toNat = sum % 256 := by
    simp only [BitVec.toNat_add, bitByte_toNat]
    omega
  simp only [adcAlu, add8, Flags.setZN, Prod.mk.injEq, Flags.mk.injEq, true_and]
  refine ⟨?value, ?carry, ?zero, ?overflow, ?negative⟩
  case value => exact BitVec.eq_of_toNat_eq hr
  case carry =>
    rw [Bool.eq_iff_iff]
    simp only [Bool.or_eq_true, decide_eq_true_eq, BitVec.toNat_add, bitByte_toNat]
    omega
  case zero =>
    rw [← hr, beq_eq_decide, decide_eq_decide]
    exact BitVec.toNat_eq
  case overflow =>
    rw [Bool.eq_iff_iff, hsigned, byte_toInt, byte_toInt]
    simp only [getLsbD_seven, hr, Bool.and_eq_true, bne_iff_ne, ne_eq, decide_eq_decide, decide_eq_true_eq]
    omega
  case negative => rw [getLsbD_seven, hr]

/-- SBC's result is the difference modulo 256, its carry says that the difference was not negative and its overflow that
the signed difference left -128 .. 127 (42 R182). -/
theorem sbcAlu_eq {a v : Byte} {p : Flags} {d signed : Int} (hd : d = (a.toNat : Int) - v.toNat - (1 - p.c.toNat))
    (hsigned : signed = a.toInt - v.toInt - (1 - p.c.toNat)) :
    sbcAlu a v p = (BitVec.ofInt 8 d,
      { p with
        c := decide (0 ≤ d), v := decide (signed < -128 ∨ 127 < signed)
        z := decide (d % 256 = 0), n := decide (128 ≤ d % 256) }) := by
  have hc := p.c.toNat_le
  have hr : ((a - v - bitByte (!p.c)).toNat : Int) = d % 256 := by
    simp only [BitVec.toNat_sub, bitByte_not_toNat]
    omega
  simp only [sbcAlu, sub8, Flags.setZN, Prod.mk.injEq, Flags.mk.injEq, true_and]
  refine ⟨?value, ?carry, ?zero, ?overflow, ?negative⟩
  case value =>
    apply BitVec.eq_of_toNat_eq
    rw [BitVec.toNat_ofInt]
    omega
  case carry =>
    rw [Bool.eq_iff_iff]
    simp only [Bool.not_eq_true', Bool.or_eq_false_iff, decide_eq_false_iff_not, decide_eq_true_eq, BitVec.toNat_sub,
      bitByte_not_toNat]
    omega
  case zero =>
    rw [← hr, beq_eq_decide, decide_eq_decide, BitVec.toNat_eq]
    exact Int.natCast_inj.symm
  case overflow =>
    rw [Bool.eq_iff_iff, hsigned, byte_toInt, byte_toInt]
    simp only [getLsbD_seven, Bool.and_eq_true, bne_iff_ne, ne_eq, beq_iff_eq, decide_eq_decide, decide_eq_true_eq]
    omega
  case negative =>
    rw [getLsbD_seven, decide_eq_decide]
    omega

theorem advance_withP (p : Flags) (s : State) : advance (s.withP p) = { s with p := p, ispc := s.pc } := rfl

theorem advance_aluToA (f : Byte → Byte → Flags → Byte × Flags) (v : Byte) (s : State) :
    advance (aluToA f v s) = { s with a := (f s.a v s.p).1, p := (f s.a v s.p).2, ispc := s.pc } := rfl

/-- Settles O28: ADC reads its operand and writes A and the flags with what `adcAlu_eq` says. -/
theorem adcResult : Obligations.AdcResult := by
  intro i m s s1 v hmn hm
  have hread : i.mnemonic.readsOperand = true := by rw [hmn]; rfl
  refine ⟨fun h => ?ok, fun f h => exec_of_readOperand_error hm hread h⟩
  case ok =>
    rw [exec_of_readOperand_ok hm hread h, hmn, readMeaning, advance_aluToA, adcAlu_eq rfl rfl]

/-- Settles O29: SBC reads its operand and writes A and the flags with what `sbcAlu_eq` says. -/
theorem sbcResult : Obligations.SbcResult := by
  intro i m s s1 v hmn hm
  have hread : i.mnemonic.readsOperand = true := by rw [hmn]; rfl
  refine ⟨fun h => ?ok, fun f h => exec_of_readOperand_error hm hread h⟩
  case ok =>
    rw [exec_of_readOperand_ok hm hread h, hmn, readMeaning, advance_aluToA, sbcAlu_eq rfl rfl]

/-! ## Bitwise logic -/

/-- The byte whose bits R183, R184 or R185 gives is the one the meaning writes to A. -/
theorem readMeaning_logic {mn : Mnemonic} {v r : Byte} {s : State}
    (h : (mn = .and ∧ ∀ k < 8, r.getLsbD k = (s.a.getLsbD k && v.getLsbD k)) ∨
      (mn = .ora ∧ ∀ k < 8, r.getLsbD k = (s.a.getLsbD k || v.getLsbD k)) ∨
      (mn = .eor ∧ ∀ k < 8, r.getLsbD k = (s.a.getLsbD k ^^ v.getLsbD k))) :
    mn.readsOperand = true ∧ readMeaning mn v s = setA r s := by
  obtain ⟨rfl, hbits⟩ | ⟨rfl, hbits⟩ | ⟨rfl, hbits⟩ := h
  · have hr : r = s.a &&& v := BitVec.eq_of_getLsbD_eq fun k hk => (hbits k hk).trans BitVec.getLsbD_and.symm
    exact ⟨rfl, by rw [hr]; rfl⟩
  · have hr : r = s.a ||| v := BitVec.eq_of_getLsbD_eq fun k hk => (hbits k hk).trans BitVec.getLsbD_or.symm
    exact ⟨rfl, by rw [hr]; rfl⟩
  · have hr : r = s.a ^^^ v := BitVec.eq_of_getLsbD_eq fun k hk => (hbits k hk).trans BitVec.getLsbD_xor.symm
    exact ⟨rfl, by rw [hr]; rfl⟩

/-- Settles O30: bits determine the byte, and the byte is written by `SetA`. -/
theorem logicResults : Obligations.LogicResults := by
  intro i m s s1 v r hm hr
  obtain ⟨hread, hmeaning⟩ := readMeaning_logic hr
  refine ⟨fun h => ?ok, fun f h => exec_of_readOperand_error hm hread h⟩
  case ok => rw [exec_of_readOperand_ok hm hread h, hmeaning, advance_setA]

/-! ## BIT and the compares -/

theorem bitFlags_eq (a v : Byte) (p : Flags) :
    bitFlags a v p =
      { p with z := decide (a &&& v = 0), n := decide (128 ≤ v.toNat), v := decide (64 ≤ v.toNat % 128) } := by
  rw [bitFlags, getLsbD_seven, getLsbD_six]
  rfl

theorem readMeaning_bit (v : Byte) (s : State) : readMeaning .bit v s = s.withP (bitFlags s.a v s.p) := rfl

/-- Settles O31: BIT reads its operand and writes the flags alone. -/
theorem bitResult : Obligations.BitResult := by
  intro i m s s1 v hmn hm
  have hread : i.mnemonic.readsOperand = true := by rw [hmn]; rfl
  refine ⟨fun h => ?ok, fun f h => exec_of_readOperand_error hm hread h⟩
  case ok =>
    rw [exec_of_readOperand_ok hm hread h, hmn, readMeaning_bit, advance_withP, bitFlags_eq]

theorem compareFlags_eq (reg v : Byte) (p : Flags) :
    compareFlags reg v p =
      { p with
        c := decide (v.toNat ≤ reg.toNat), z := decide (reg = v)
        n := decide (128 ≤ ((reg.toNat : Int) - v.toNat) % 256) } := by
  have hn : (reg - v).getLsbD 7 = decide (128 ≤ ((reg.toNat : Int) - v.toNat) % 256) := by
    rw [getLsbD_seven, decide_eq_decide, BitVec.toNat_sub]
    omega
  rw [compareFlags, hn]
  rfl

/-- The three compares, and the register each one compares. -/
theorem readMeaning_compare {mn : Mnemonic} {s : State} {reg : Byte}
    (h : (mn = .cmp ∧ reg = s.a) ∨ (mn = .cpx ∧ reg = s.x) ∨ (mn = .cpy ∧ reg = s.y)) (v : Byte) :
    mn.readsOperand = true ∧ readMeaning mn v s = s.withP (compareFlags reg v s.p) := by
  obtain ⟨rfl, rfl⟩ | ⟨rfl, rfl⟩ | ⟨rfl, rfl⟩ := h <;> exact ⟨rfl, rfl⟩

/-- Settles O32: a compare reads its operand and writes the flags alone. -/
theorem compareResults : Obligations.CompareResults := by
  intro i m s s1 v reg hm hreg
  obtain ⟨hread, hmeaning⟩ := readMeaning_compare hreg v
  refine ⟨fun h => ?ok, fun f h => exec_of_readOperand_error hm hread h⟩
  case ok =>
    rw [exec_of_readOperand_ok hm hread h, hmeaning, advance_withP, compareFlags_eq]

/-! ## Increments and decrements -/

theorem eq_add_one_of_toNat {v r : Byte} (h : r.toNat = (v.toNat + 1) % 256) : r = v + 1 :=
  BitVec.eq_of_toNat_eq h

theorem eq_sub_one_of_toNat {v r : Byte} (h : r.toNat = (v.toNat + 255) % 256) : r = v - 1 := by
  bv_omega

theorem no_read_or_store_of_modifies {mn : Mnemonic} :
    mn.modifies = true → mn.readsOperand = false ∧ mn.stores = false := by
  cases mn <;> decide

theorem exec_modify {i : Instr} {m : AddrMode} (s : State) (hm : i.mode = .operand (.address m))
    (hmod : i.mnemonic.modifies = true) : exec i s = modifyThen (modifyMeaning i.mnemonic) m s := by
  obtain ⟨hread, hstore⟩ := no_read_or_store_of_modifies hmod
  have hshape : shapeOf i.mnemonic (.operand (.address m)) = .modify i.mnemonic m := by
    simp [shapeOf, hread, hstore, hmod]
  rw [exec_eq, hm, hshape]
  rfl

/-- INC and DEC, with the byte each one writes given by its value. -/
theorem modifyMeaning_incDec {mn : Mnemonic} {v r : Byte}
    (h : (mn = .inc ∧ r.toNat = (v.toNat + 1) % 256) ∨ (mn = .dec ∧ r.toNat = (v.toNat + 255) % 256)) (p : Flags) :
    mn.modifies = true ∧ modifyMeaning mn v p = (r, p.setZN r) := by
  obtain ⟨rfl, hr⟩ | ⟨rfl, hr⟩ := h
  · exact ⟨rfl, by rw [eq_add_one_of_toNat hr]; rfl⟩
  · exact ⟨rfl, by rw [eq_sub_one_of_toNat hr]; rfl⟩

/-- Settles O33: INC and DEC read, modify and write the byte at the resolved address; the write cannot fault where the
read did not. -/
theorem incDecMemory : Obligations.IncDecMemory := by
  intro i m s s1 s2 a v r hm hr
  obtain ⟨hmod, hmeaning⟩ := modifyMeaning_incDec hr s2.p
  rw [exec_modify s hm hmod]
  refine ⟨fun hres hread => ?ok, fun f hres => ?unresolved, fun f hres hread => ?unread⟩
  case ok =>
    rw [modifyThen_next_iff.mpr ⟨_, _, hres, hread, rfl⟩, hmeaning, setZN_eq]
    rfl
  case unresolved => exact modifyThen_fault_iff.mpr (.inl hres)
  case unread => exact modifyThen_fault_iff.mpr (.inr ⟨_, hres, hread⟩)

/-- Settles O34: a register form, whose meaning writes the one register by `SetX` or `SetY`. -/
theorem incDecRegisters : Obligations.IncDecRegisters := by
  intro s r p
  refine ⟨fun hr => ?inx, fun hr => ?iny, fun hr => ?dex, fun hr => ?dey⟩
  case inx =>
    obtain rfl := eq_add_one_of_toNat hr
    exact (exec_register s rfl rfl rfl (by decide)).trans (congrArg _ (advance_setX _ s))
  case iny =>
    obtain rfl := eq_add_one_of_toNat hr
    exact (exec_register s rfl rfl rfl (by decide)).trans (congrArg _ (advance_setY _ s))
  case dex =>
    obtain rfl := eq_sub_one_of_toNat hr
    exact (exec_register s rfl rfl rfl (by decide)).trans (congrArg _ (advance_setX _ s))
  case dey =>
    obtain rfl := eq_sub_one_of_toNat hr
    exact (exec_register s rfl rfl rfl (by decide)).trans (congrArg _ (advance_setY _ s))

end Sys2Proof.Machine
end

section
namespace Sys2Proof.Machine

open Sys2Proof

/-! # The D and I flags are inert (42 R197, 60 R301)

Replacing D and I commutes with every operation that neither stores nor loads the flag byte: the operation answers the
same value, and its next state with D and I replaced. -/

/-! ## Replacing D and I -/

/-- The flags with D and I replaced. -/
def Flags.withDI (d n : Bool) (p : Flags) : Flags := { p with d := d, i := n }

/-- The state with D and I replaced. -/
def State.withDI (d n : Bool) (s : State) : State := s.withP (s.p.withDI d n)

@[simp] theorem State.withDI_p (d n : Bool) (s : State) : (s.withDI d n).p = s.p.withDI d n := rfl

/-- A branch tests neither D nor I. -/
theorem withDI_get_of_branchTest {mn : Mnemonic} {f : FlagName} {want : Bool} (d n : Bool) (p : Flags)
    (h : branchTest mn = some (f, want)) : (p.withDI d n).get f = p.get f := by
  cases mn <;> cases h <;> rfl

/-! ## The operations -/

theorem draw_withDI (d n : Bool) (s : State) : draw (s.withDI d n) = ((draw s).1, (draw s).2.withDI d n) := by
  cases hd : s.draws with
  | nil => rw [draw_free hd, draw_free (s := s.withDI d n) hd]; rfl
  | cons e es => rw [draw_injected hd, draw_injected (s := s.withDI d n) hd]; rfl

section
variable {d n : Bool} {s t : State}

theorem memRead_withDI {a : Nat} {v : Byte} (h : memRead a s = .ok (v, t)) :
    memRead a (s.withDI d n) = .ok (v, t.withDI d n) := by
  obtain ⟨hlt, ⟨ha, hr⟩ | ⟨ha, hr⟩⟩ := memRead_ok_iff.mp h
  · refine memRead_ok_iff.mpr ⟨hlt, .inl ⟨ha, ?_⟩⟩
    rw [draw_withDI, ← hr]
  · cases hr
    exact memRead_plain _ hlt ha

theorem memRead16_withDI {a : Nat} {w : Word} (h : memRead16 a s = .ok (w, t)) :
    memRead16 a (s.withDI d n) = .ok (w, t.withDI d n) := by
  obtain ⟨lo, hi, hlo, ha, hhi, hr⟩ := memRead16_ok_iff.mp h
  cases hr
  exact memRead16_ok_iff.mpr ⟨_, _, memRead_withDI hlo, ha, memRead_withDI hhi, rfl⟩

theorem checkedAdd16_withDI {a b : Nat} {k : Byte} (h : checkedAdd16 a k s = .ok (b, t)) :
    checkedAdd16 a k (s.withDI d n) = .ok (b, t.withDI d n) := by
  obtain ⟨hle, hr⟩ := checkedAdd16_ok_iff.mp h
  cases hr
  exact checkedAdd16_ok_iff.mpr ⟨hle, rfl⟩

theorem indexed_withDI {base a : Nat} {idx : Index} (h : indexed base idx s = .ok (a, t)) :
    indexed base idx (s.withDI d n) = .ok (a, t.withDI d n) := by
  cases idx with
  | none => cases h; rfl
  | x | y => exact checkedAdd16_withDI h

theorem resolveAddress_withDI {m : AddrMode} {a : Nat} (h : resolveAddress m s = .ok (a, t)) :
    resolveAddress m (s.withDI d n) = .ok (a, t.withDI d n) := by
  cases m with
  | zeroPage b idx | absolute w idx => exact indexed_withDI h
  | relative b =>
    obtain ⟨hrange, hr⟩ := checkedAddSigned16_ok_iff.mp h
    cases hr
    exact checkedAddSigned16_ok_iff.mpr ⟨hrange, rfl⟩
  | indirect w =>
    obtain ⟨r, hr, h⟩ := bind_ok_iff.mp h
    cases h
    exact resolveAddress_indirect_ok (memRead16_withDI hr)
  | indexedIndirect b =>
    obtain ⟨r, hr, h⟩ := bind_ok_iff.mp h
    cases h
    exact bind_of_ok (memRead16_withDI hr)
  | indirectIndexed b =>
    obtain ⟨r, hr, h⟩ := bind_ok_iff.mp h
    exact (bind_of_ok (memRead16_withDI hr)).trans (checkedAdd16_withDI h)

theorem readOperand_withDI {m : OperandMode} {v : Byte} (h : readOperand m s = .ok (v, t)) :
    readOperand m (s.withDI d n) = .ok (v, t.withDI d n) := by
  cases m with
  | immediate b => cases h; rfl
  | address m =>
    rw [readOperand_address] at h ⊢
    obtain ⟨⟨a, s1⟩, ha, h⟩ := bind_ok_iff.mp h
    rw [bind_of_ok (resolveAddress_withDI ha)]
    exact memRead_withDI h

theorem goto_withDI {a : Nat} (h : goto a s = .ok t) : goto a (s.withDI d n) = .ok (t.withDI d n) := by
  obtain ⟨hlt, rfl⟩ := goto_ok_iff.mp h
  exact goto_ok_iff.mpr ⟨hlt, rfl⟩

theorem jumpTo_withDI {m : AddrMode} (h : jumpTo m s = .ok t) : jumpTo m (s.withDI d n) = .ok (t.withDI d n) := by
  obtain ⟨r, hr, h⟩ := bind_ok_iff.mp h
  exact (bind_of_ok (resolveAddress_withDI hr)).trans (goto_withDI h)

theorem push8_withDI {v : Byte} (h : push8 v s = .ok t) : push8 v (s.withDI d n) = .ok (t.withDI d n) := by
  obtain ⟨hsp, rfl⟩ := push8_ok_iff.mp h
  exact push8_ok_iff.mpr ⟨hsp, rfl⟩

theorem push16_withDI {w : Word} (h : push16 w s = .ok t) : push16 w (s.withDI d n) = .ok (t.withDI d n) := by
  obtain ⟨u, hu, h⟩ := bind_ok_iff.mp h
  exact (bind_of_ok (push8_withDI hu)).trans (push8_withDI h)

theorem pop8_withDI {v : Byte} (h : pop8 s = .ok (v, t)) : pop8 (s.withDI d n) = .ok (v, t.withDI d n) := by
  obtain ⟨hsp, hr⟩ := pop8_ok_iff.mp h
  cases hr
  exact pop8_ok_iff.mpr ⟨hsp, rfl⟩

theorem pop16_withDI {w : Word} (h : pop16 s = .ok (w, t)) : pop16 (s.withDI d n) = .ok (w, t.withDI d n) := by
  obtain ⟨hsp, hsp', hr⟩ := pop16_ok_iff.mp h
  cases hr
  exact pop16_ok_iff.mpr ⟨hsp, hsp', rfl⟩

end

/-! ## The meanings -/

theorem readMeaning_withDI (d n : Bool) (mn : Mnemonic) (v : Byte) (s : State) :
    readMeaning mn v (s.withDI d n) = (readMeaning mn v s).withDI d n := by
  cases mn <;> rfl

theorem storedByte_withDI (d n : Bool) (mn : Mnemonic) (s : State) :
    storedByte mn (s.withDI d n) = storedByte mn s := by
  cases mn <;> rfl

theorem modifyMeaning_withDI (d n : Bool) (mn : Mnemonic) (v : Byte) (p : Flags) :
    modifyMeaning mn v (p.withDI d n) = ((modifyMeaning mn v p).1, (modifyMeaning mn v p).2.withDI d n) := by
  cases mn <;> rfl

theorem registerMeaning_withDI (d n : Bool) {mn : Mnemonic} (s : State)
    (h : mn ∉ [.php, .brk, .plp, .rti, .sed, .cld, .sei, .cli]) :
    registerMeaning mn (s.withDI d n) = (registerMeaning mn s).withDI d n := by
  cases mn
  case sed | cld | sei | cli => exact absurd (by decide) h
  all_goals rfl

/-! ## The instructions -/

theorem advance_withDI (d n : Bool) (s : State) : advance (s.withDI d n) = (advance s).withDI d n := rfl

theorem jsr_withDI {d n : Bool} {w : Word} {s t : State} (h : jsr w s = .next t) :
    jsr w (s.withDI d n) = .next (t.withDI d n) := by
  obtain ⟨r, hr, h⟩ := bind_ok_iff.mp (finish_next_iff.mp h)
  obtain ⟨u, hu, h⟩ := bind_ok_iff.mp h
  exact finish_next_iff.mpr (bind_ok_iff.mpr ⟨_, resolveAddress_withDI hr,
    bind_ok_iff.mpr ⟨_, push16_withDI hu, goto_withDI h⟩⟩)

/-- HALT, and the stack instructions that neither store nor load the flag byte. -/
theorem stackOrHalt_withDI {d n : Bool} {i : Instr} {s t : State}
    (hi : i ∈ [.pha, .pla, .php, .plp, .rts, .brk, .rti, .halt])
    (hmn : i.mnemonic ∉ [.php, .brk, .plp, .rti, .sed, .cld, .sei, .cli])
    (h : (Shape.other i.mnemonic).run s = .next t) :
    (Shape.other i.mnemonic).run (s.withDI d n) = .next (t.withDI d n) := by
  simp only [List.mem_cons, List.not_mem_nil, or_false] at hi
  obtain rfl | rfl | rfl | rfl | rfl | rfl | rfl | rfl := hi
  · obtain ⟨u, hu, h⟩ := bind_ok_iff.mp (finish_next_iff.mp h)
    cases h
    exact finish_next_iff.mpr (bind_ok_iff.mpr ⟨_, push8_withDI hu, rfl⟩)
  · obtain ⟨r, hr, h⟩ := bind_ok_iff.mp (finish_next_iff.mp h)
    cases h
    exact finish_next_iff.mpr (bind_ok_iff.mpr ⟨_, pop8_withDI hr, rfl⟩)
  · exact absurd (by decide) hmn
  · exact absurd (by decide) hmn
  · obtain ⟨r, hr, h⟩ := bind_ok_iff.mp (finish_next_iff.mp h)
    exact finish_next_iff.mpr (bind_ok_iff.mpr ⟨_, pop16_withDI hr, goto_withDI h⟩)
  · exact absurd (by decide) hmn
  · exact absurd (by decide) hmn
  · cases h
    rfl

/-- Settles O59: replacing D and I commutes with every shape of instruction but those excluded. -/
theorem decimalAndInterruptDisableAreInert : Obligations.DecimalAndInterruptDisableAreInert := by
  intro i s t d n hi h
  change exec i (s.withDI d n) = .next (t.withDI d n)
  rw [exec_eq] at h ⊢
  have hshape := hasShape i
  generalize shapeOf i.mnemonic i.mode = sh at h hshape ⊢
  cases hshape with
  | read m =>
    obtain ⟨r, hr, rfl⟩ := readThen_next_iff.mp h
    refine readThen_next_iff.mpr ⟨_, readOperand_withDI hr, ?_⟩
    rw [readMeaning_withDI, advance_withDI]
  | store m =>
    obtain ⟨r, hr, hlt, rfl⟩ := storeThen_next_iff.mp h
    refine storeThen_next_iff.mpr ⟨_, resolveAddress_withDI hr, hlt, ?_⟩
    rw [storedByte_withDI]
    rfl
  | modify m =>
    obtain ⟨r, v, hr, hv, rfl⟩ := modifyThen_next_iff.mp h
    refine modifyThen_next_iff.mpr ⟨_, _, resolveAddress_withDI hr, memRead_withDI hv, ?_⟩
    rw [State.withDI_p, modifyMeaning_withDI]
    rfl
  | shiftA =>
    cases h
    dsimp only [Shape.run]
    rw [State.withDI_p, modifyMeaning_withDI]
    rfl
  | register =>
    cases h
    dsimp only [Shape.run]
    rw [registerMeaning_withDI d n s hi, advance_withDI]
  | branch flag want b _ htest =>
    dsimp only [Shape.run] at h ⊢
    rw [State.withDI_p, withDI_get_of_branchTest d n s.p htest]
    split at h
    case isTrue htaken =>
      rw [if_pos htaken]
      exact congrArg finish (jumpTo_withDI (finish_next_iff.mp h))
    case isFalse hnot =>
      rw [if_neg hnot]
      cases h
      rfl
  | jump m => exact congrArg finish (jumpTo_withDI (finish_next_iff.mp h))
  | call w => exact jsr_withDI h
  | other hother => exact stackOrHalt_withDI hother hi h

end Sys2Proof.Machine
end

section
namespace Sys2Proof.Machine

open Sys2Proof

/-! # Shifts and rotates (43_shift_rotate.md)

The four shift functions as arithmetic on the byte's value, then what a shift answers on A and on memory. -/

/-! ## One bit to either side -/

theorem getLsbD_zero (v : Byte) : v.getLsbD 0 = decide (v.toNat % 2 = 1) := Nat.testBit_zero _

theorem shiftLeft_one_toNat (v : Byte) : (v <<< 1).toNat = v.toNat * 2 % 256 := by
  rw [BitVec.toNat_shiftLeft, Nat.shiftLeft_eq]

theorem ushiftRight_one_toNat (v : Byte) : (v >>> 1).toNat = v.toNat / 2 := by
  rw [BitVec.toNat_ushiftRight, Nat.shiftRight_eq_div_pow]

theorem maskOf_bit7_toNat (b : Bool) : (maskOf b 0x80).toNat = b.toNat * 128 := by
  cases b <;> rfl

/-- ROL's vacated bit 0 is clear, so the carry's addition wraps nothing (43 R203). -/
theorem shiftLeft_one_add_bitByte_toNat (v : Byte) (c : Bool) :
    ((v <<< 1) + bitByte c).toNat = v.toNat * 2 % 256 + c.toNat := by
  have hc := c.toNat_le
  rw [BitVec.toNat_add, shiftLeft_one_toNat, bitByte_toNat]
  omega

/-- ROR's vacated bit 7 is clear, so the carry's addition wraps nothing (43 R204). -/
theorem ushiftRight_one_add_maskOf_toNat (v : Byte) (c : Bool) :
    ((v >>> 1) + maskOf c 0x80).toNat = v.toNat / 2 + c.toNat * 128 := by
  have hc := c.toNat_le
  have hv := v.isLt
  rw [BitVec.toNat_add, ushiftRight_one_toNat, maskOf_bit7_toNat]
  omega

/-! ## The shift functions -/

section
variable {v r : Byte}

theorem aslFn_eq (c : Bool) (h : r.toNat = v.toNat * 2 % 256) : aslFn v c = (r, decide (128 ≤ v.toNat)) :=
  Prod.ext (BitVec.eq_of_toNat_eq ((shiftLeft_one_toNat v).trans h.symm)) (getLsbD_seven v)

theorem lsrFn_eq (c : Bool) (h : r.toNat = v.toNat / 2) : lsrFn v c = (r, decide (v.toNat % 2 = 1)) :=
  Prod.ext (BitVec.eq_of_toNat_eq ((ushiftRight_one_toNat v).trans h.symm)) (getLsbD_zero v)

theorem rolFn_eq {c : Bool} (h : r.toNat = v.toNat * 2 % 256 + c.toNat) :
    rolFn v c = (r, decide (128 ≤ v.toNat)) :=
  Prod.ext (BitVec.eq_of_toNat_eq ((shiftLeft_one_add_bitByte_toNat v c).trans h.symm)) (getLsbD_seven v)

theorem rorFn_eq {c : Bool} (h : r.toNat = v.toNat / 2 + c.toNat * 128) :
    rorFn v c = (r, decide (v.toNat % 2 = 1)) :=
  Prod.ext (BitVec.eq_of_toNat_eq ((ushiftRight_one_add_maskOf_toNat v c).trans h.symm)) (getLsbD_zero v)

theorem shiftAlu_eq {f : ShiftFn} {p : Flags} {out : Bool} (h : f v p.c = (r, out)) :
    shiftAlu f v p = (r, { p with c := out, z := decide (r = 0), n := decide (128 ≤ r.toNat) }) := by
  rw [shiftAlu, h, setZN_eq]

/-- The four shifts, with the byte each one writes given by its value. -/
theorem modifyMeaning_shift {mn : Mnemonic} {p : Flags} {out : Bool}
    (h : (mn = .asl ∧ r.toNat = v.toNat * 2 % 256 ∧ out = decide (128 ≤ v.toNat)) ∨
      (mn = .lsr ∧ r.toNat = v.toNat / 2 ∧ out = decide (v.toNat % 2 = 1)) ∨
      (mn = .rol ∧ r.toNat = v.toNat * 2 % 256 + p.c.toNat ∧ out = decide (128 ≤ v.toNat)) ∨
      (mn = .ror ∧ r.toNat = v.toNat / 2 + p.c.toNat * 128 ∧ out = decide (v.toNat % 2 = 1))) :
    mn.modifies = true ∧ modifyMeaning mn v p =
      (r, { p with c := out, z := decide (r = 0), n := decide (128 ≤ r.toNat) }) := by
  obtain ⟨rfl, hr, rfl⟩ | ⟨rfl, hr, rfl⟩ | ⟨rfl, hr, rfl⟩ | ⟨rfl, hr, rfl⟩ := h
  · exact ⟨rfl, shiftAlu_eq (aslFn_eq p.c hr)⟩
  · exact ⟨rfl, shiftAlu_eq (lsrFn_eq p.c hr)⟩
  · exact ⟨rfl, shiftAlu_eq (rolFn_eq hr)⟩
  · exact ⟨rfl, shiftAlu_eq (rorFn_eq hr)⟩

end

/-! ## The instructions -/

theorem exec_accumulator {i : Instr} (s : State) (hm : i.mode = .accumulator) :
    exec i s = .next (advance ((s.withA (modifyMeaning i.mnemonic s.a s.p).1).withP
      (modifyMeaning i.mnemonic s.a s.p).2)) := by
  rw [exec_eq, hm]
  rfl

/-- Resolving and reading an operand leave the flags, so a rotate on memory takes the carry the instruction began
with. -/
theorem p_of_resolveAddress_memRead {m : AddrMode} {s s1 s2 : State} {a : Nat} {v : Byte}
    (hres : resolveAddress m s = .ok (a, s1)) (hread : memRead a s1 = .ok (v, s2)) : s2.p = s.p := by
  obtain ⟨_, _, _, _, _, _, hp, _⟩ := ((resolveAddress_same hres).trans (memRead_same hread)).fields
  exact hp

/-- Settles O35: on A the meaning's byte and flags are written; on memory the byte at the resolved address is read,
modified and written back, and the write cannot fault where the read did not. -/
theorem shiftResults : Obligations.ShiftResults := by
  refine ⟨fun i s r out hm hr => ?onA, fun i m s s1 s2 a v r out hm hr => ?onMemory⟩
  case onA =>
    obtain ⟨_, hmeaning⟩ := modifyMeaning_shift hr
    rw [exec_accumulator s hm, hmeaning]
    rfl
  case onMemory =>
    obtain ⟨hmod, hmeaning⟩ := modifyMeaning_shift hr
    rw [exec_modify s hm hmod]
    refine ⟨fun hres hread => ?ok, fun f hres => ?unresolved, fun f hres hread => ?unread⟩
    case ok =>
      rw [← p_of_resolveAddress_memRead hres hread] at hmeaning
      rw [modifyThen_next_iff.mpr ⟨_, _, hres, hread, rfl⟩, hmeaning]
      rfl
    case unresolved => exact modifyThen_fault_iff.mpr (.inl hres)
    case unread => exact modifyThen_fault_iff.mpr (.inr ⟨_, hres, hread⟩)

end Sys2Proof.Machine
end

section
namespace Sys2Proof.Machine

open Sys2Proof

/-! # Branches, jumps, and the return from a call (44_control_transfer.md)

A taken branch and a JMP resolve an address and go there: what that answers follows from what the resolver answers. -/

/-! ## Going to a resolved address -/

section
variable {m : AddrMode} {s s1 : State} {a : Nat}

theorem jumpTo_next (h : resolveAddress m s = .ok (a, s1)) (ha : a < memSize) :
    finish (jumpTo m s) = .next (wentTo a s1) :=
  finish_next_iff.mpr ((bind_of_ok h).trans (goto_ok a s1 ha))

theorem jumpTo_invalidTarget (h : resolveAddress m s = .ok (a, s1)) (ha : memSize ≤ a) :
    finish (jumpTo m s) = .fault (.invalidTarget a (s1.withStatus (.faulted .invalidTarget))) :=
  finish_fault_iff.mpr ((bind_of_ok h).trans (goto_invalidTarget a s1 ha))

theorem jumpTo_unresolved {f : Fault} (h : resolveAddress m s = .error f) : finish (jumpTo m s) = .fault f :=
  finish_fault_iff.mpr (bind_of_error h)

end

/-! ## Branches -/

theorem no_access_of_branchTest {mn : Mnemonic} {test : FlagName × Bool} (h : branchTest mn = some test) :
    mn.readsOperand = false ∧ mn.stores = false ∧ mn.modifies = false := by
  cases mn <;> cases h <;> decide

/-- Every branch is one test of one flag, and resolves its address only when that test succeeds (44 R210, D14). -/
theorem exec_branch {i : Instr} {b : Byte} {flag : FlagName} {want : Bool} (s : State)
    (htest : branchTest i.mnemonic = some (flag, want)) (hm : i.mode = .operand (.address (.relative b))) :
    exec i s = if s.p.get flag = want then finish (jumpTo (.relative b) s) else .next (advance s) := by
  obtain ⟨hread, hstore, hmodify⟩ := no_access_of_branchTest htest
  have hshape : shapeOf i.mnemonic (.operand (.address (.relative b))) = .branch i.mnemonic flag want b := by
    simp [shapeOf, hread, hstore, hmodify, htest]
  rw [exec_eq, hm, hshape]
  rfl

/-- Settles O36: the resolver rejects a sum below 0 or above 0xFFFF, and `Goto` a target from the end of memory on. -/
theorem branchResults : Obligations.BranchResults := by
  intro i s b flag want htest hm
  rw [exec_branch s htest hm]
  refine ⟨fun hnot => if_neg hnot, fun htaken => ?taken⟩
  rw [if_pos htaken]
  intro t
  have hresolve := relativeMode s b
  refine ⟨fun hlow hhigh => ?inMemory, fun hout => ?outside, fun hlow hhigh => ?pastMemory⟩
  case inMemory =>
    exact jumpTo_next (hresolve.trans (if_pos ⟨hlow, by omega⟩)) (by simp only [memSize]; omega)
  case outside =>
    exact jumpTo_unresolved (hresolve.trans (if_neg fun hin => by omega))
  case pastMemory =>
    exact jumpTo_invalidTarget (hresolve.trans (if_pos ⟨by omega, hhigh⟩)) (by simp only [memSize]; omega)

/-! ## Jumps -/

theorem exec_jmpAbs (w : Word) (s : State) : exec (.jmpAbs w) s = finish (jumpTo (.absolute w .none) s) := rfl

theorem exec_jmpInd (w : Word) (s : State) : exec (.jmpInd w) s = finish (jumpTo (.indirect w) s) := rfl

/-- Settles O37: the absolute form resolves to its own word, the indirect form to the word read there or to the fault of
that read. -/
theorem jmpResult : Obligations.JmpResult := by
  intro w s
  obtain ⟨habsolute, -⟩ := absoluteModes s w
  obtain ⟨hpointer, houtside, hlastCell, -⟩ := pointerModes s
  rw [exec_jmpAbs, exec_jmpInd]
  refine ⟨jumpTo_next habsolute, jumpTo_invalidTarget habsolute, ?_, ?_, ?_, ?_⟩
  · exact fun t s1 hread => jumpTo_next (hpointer w t s1 hread)
  · exact fun t s1 hread => jumpTo_invalidTarget (hpointer w t s1 hread)
  · exact fun hw => jumpTo_unresolved (houtside w hw)
  · exact fun hw => jumpTo_unresolved (hlastCell w hw)

/-! ## Call and return -/

/-- A 16-bit pop depends on SP and the memory alone. -/
theorem pop16_of_same_stack {s t u : State} {w : Word} (hsp : t.sp = s.sp) (hmem : t.mem = s.mem)
    (h : pop16 s = .ok (w, u)) : pop16 t = .ok (w, t.withSp u.sp) := by
  obtain ⟨hne, hne', hr⟩ := pop16_ok_iff.mp h
  cases hr
  rw [← hsp] at hne hne'
  refine pop16_ok_iff.mpr ⟨hne, hne', ?_⟩
  rw [State.withSp_sp, hsp, hmem]

theorem push16_keeps_a_p {w : Word} {s t : State} (h : push16 w s = .ok t) : t.a = s.a ∧ t.p = s.p := by
  obtain ⟨-, -, rfl⟩ := push16_ok_iff.mp h
  exact ⟨rfl, rfl⟩

/-- RTS pops what JSR pushed, in a state that kept the memory and the stack pointer. -/
theorem exec_rts_of_pushed {s t u : State} (hpc : s.pc < memSize) (hpush : push16 (pcWord s) s = .ok u)
    (hsp : t.sp = u.sp) (hmem : t.mem = u.mem) : exec .rts t = .next (wentTo s.pc (t.withSp s.sp)) := by
  have hpop := pop16_of_same_stack hsp hmem (push16ThenPop16 s u (pcWord s) hpush)
  rw [exec_rts, bind_of_ok hpop, pcWord_toNat hpc, goto_ok _ _ hpc]
  rfl

/-- Settles O40: going to the target keeps the memory and the stack pointer that the push of the return address left. -/
theorem jsrThenRts : Obligations.JsrThenRts := by
  intro s t w pc hcall hpc
  rw [exec_jsr] at hcall
  obtain ⟨u, hpush, hgo⟩ := bind_ok_iff.mp (finish_next_iff.mp hcall)
  obtain ⟨-, rfl⟩ := goto_ok_iff.mp hgo
  obtain ⟨ha, hp⟩ := push16_keeps_a_p hpush
  exact ⟨_, exec_rts_of_pushed hpc hpush rfl rfl, rfl, rfl, rfl, ha, hp⟩

end Sys2Proof.Machine
end

section
namespace Sys2Proof.Machine

open Sys2Proof

/-! # Flag instructions, flags pushed and pulled, and the software interrupt (45_stack_flag_system.md) -/

/-! ## Flag instructions -/

/-- A register form whose meaning writes the flags alone. -/
theorem exec_writes_flags {i : Instr} {s : State} {p : Flags} (hm : i.mode = .implied)
    (hpush : i.mnemonic.pushes = false) (hpop : i.mnemonic.pops = false) (hhalt : i.mnemonic ≠ .halt)
    (hmeaning : registerMeaning i.mnemonic s = s.withP p) : exec i s = .next { s with p := p, ispc := s.pc } := by
  rw [exec_register s hm hpush hpop hhalt, hmeaning, advance_withP]

/-- Settles O46: a register form, whose meaning writes the one flag, or none. -/
theorem flagNopResults : Obligations.FlagNopResults := by
  intro s
  refine ⟨?clc, ?sec, ?cli, ?sei, ?clv, ?cld, ?sed, ?nop⟩
  case clc => exact exec_writes_flags rfl rfl rfl (by decide) rfl
  case sec => exact exec_writes_flags rfl rfl rfl (by decide) rfl
  case cli => exact exec_writes_flags rfl rfl rfl (by decide) rfl
  case sei => exact exec_writes_flags rfl rfl rfl (by decide) rfl
  case clv => exact exec_writes_flags rfl rfl rfl (by decide) rfl
  case cld => exact exec_writes_flags rfl rfl rfl (by decide) rfl
  case sed => exact exec_writes_flags rfl rfl rfl (by decide) rfl
  case nop => exact exec_register s rfl rfl rfl (by decide)

/-! ## Flags pushed and pulled -/

theorem php_ok {s t : State} (h : exec .php s = .next t) :
    s.sp ≠ 0x00 ∧ t = advance (afterPush (flagsByte s.p ||| phpOverride) s) := by
  rw [exec_php] at h
  obtain ⟨u, hpush, hadvance⟩ := bind_ok_iff.mp (finish_next_iff.mp h)
  obtain ⟨hsp, rfl⟩ := push8_ok_iff.mp hpush
  cases hadvance
  exact ⟨hsp, rfl⟩

theorem exec_plp_of_popFlags {s t : State} (h : popFlags s = .ok t) : exec .plp s = .next (advance t) := by
  rw [exec_plp, bind_of_ok h]
  rfl

/-- The flag byte that PHP pushes is loaded as the one that BRK pushes: the overrides are the same bit (decision D7). -/
theorem flagsFromByte_or_phpOverride (p : Flags) :
    flagsFromByte (flagsByte p ||| phpOverride) = { p with b := true } := flagsFromByte_or_brkOverride p

/-- The flags are loaded from the byte that was pushed, in a state that kept the memory and the stack pointer. -/
theorem popFlags_of_pushed {v : Byte} {s t : State} (hsp : s.sp ≠ 0x00) (hmem : t.mem = (afterPush v s).mem)
    (htsp : t.sp = s.sp - 1) : popFlags t = .ok ((t.withSp s.sp).withP (flagsFromByte v)) := by
  have hne : t.sp ≠ 0xFF := by rw [htsp]; bv_omega
  have hback : t.sp + 1 = s.sp := by rw [htsp]; bv_omega
  refine popFlags_ok_iff.mpr ⟨hne, ?_⟩
  rw [hback, hmem, afterPush_mem, cellAt_setCell_same, flagsFromByte_mask]

/-- Settles O45: PLP finds the byte that PHP pushed, whose flags are those of before with BREAK set. -/
theorem phpThenPlp : Obligations.PhpThenPlp := by
  intro s t pc hphp
  obtain ⟨hsp, rfl⟩ := php_ok hphp
  have hpop := popFlags_of_pushed hsp (v := flagsByte s.p ||| phpOverride)
    (t := (advance (afterPush (flagsByte s.p ||| phpOverride) s)).withPc pc) rfl rfl
  rw [flagsFromByte_or_phpOverride] at hpop
  refine ⟨_, exec_plp_of_popFlags hpop, ?flags, ?sp⟩
  case flags => rw [advance_p, State.withP_p]
  case sp => rw [advance_sp, State.withP_sp, State.withSp_sp]

/-! ## Taking the software interrupt -/

theorem exec_brk (s : State) : exec .brk s = finish (takeInterrupt s) := rfl

/-- With room for the three pushes, what is left is to read the vector and to go there. -/
theorem takeInterrupt_entered {s : State} (h : 3 ≤ s.sp.toNat) :
    takeInterrupt s = memRead16 Config.irqVector.toNat (interruptEntered s) >>= fun t => goto t.1.toNat t.2 := by
  have hflags : (afterPush16 (pcWord s) s).sp ≠ 0x00 := by rw [afterPush16_sp]; bv_omega
  unfold takeInterrupt pushFlags
  rw [bind_of_ok (push16_ok _ s (by omega)), bind_of_ok (push8_ok _ _ hflags)]
  rfl

/-- The state BRK reads its vector in, in the words of 45 R249. -/
theorem interruptEntered_eq {s : State} (h : 3 ≤ s.sp.toNat) :
    interruptEntered s =
      ((storeCell (0x100 + s.sp.toNat - 2) (flagsByte s.p ||| brkOverride) (afterPush16 (pcWord s) s)).withSp
        (s.sp - 3)).withP { s.p with i := true } := by
  have hslot : stackAddr (s.sp - 2) = 0x100 + s.sp.toNat - 2 := stackAddr_sub (by bv_omega)
  have hsp : s.sp - 2 - 1 = s.sp - 3 := by bv_omega
  unfold interruptEntered
  rw [afterPush, afterPush16_sp, hslot, hsp]

theorem takeInterrupt_overflow_flags {s : State} (h : s.sp = 0x02) :
    takeInterrupt s =
      .error (.stackOverflow ((afterPush16 (pcWord s) s).withStatus (.faulted .stackOverflow))) := by
  have hempty : (afterPush16 (pcWord s) s).sp = 0x00 := by rw [afterPush16_sp, h]; rfl
  unfold takeInterrupt pushFlags
  rw [bind_of_ok (push16_ok _ s (by rw [h]; decide)), bind_of_error (push8_overflow _ _ hempty)]

theorem takeInterrupt_overflow_pc {s : State} {f : Fault} (h : push16 (pcWord s) s = .error f) :
    takeInterrupt s = .error f := bind_of_error h

/-- Settles O48: with room for three pushes BRK answers as the read of its vector does; with less, the push for which
no slot is left overflows. -/
theorem brkResult : Obligations.BrkResult := by
  intro s s1 s2 s3 s4
  refine ⟨fun hsp => ?room, fun hsp => ?two, fun hsp => ?one, fun hsp => ?none⟩ <;> rw [exec_brk]
  case room =>
    have hentered : interruptEntered s = s4 := by
      rw [interruptEntered_eq hsp, afterPush16_pcWord s (by omega)]
      rfl
    rw [takeInterrupt_entered hsp, hentered]
    refine ⟨fun t s5 hread ht => ?inMemory, fun t s5 hread ht => ?outside, fun f hread => ?unread⟩
    case inMemory => exact finish_next_iff.mpr ((bind_of_ok hread).trans (goto_ok _ _ ht))
    case outside => exact finish_fault_iff.mpr ((bind_of_ok hread).trans (goto_invalidTarget _ _ ht))
    case unread => exact finish_fault_iff.mpr (bind_of_error hread)
  case two =>
    rw [takeInterrupt_overflow_flags hsp, afterPush16_pcWord s (by rw [hsp]; decide)]
    rfl
  case one =>
    rw [takeInterrupt_overflow_pc (push16_overflow_second _ s hsp), hiByte_pcWord]
    rfl
  case none =>
    rw [takeInterrupt_overflow_pc (push16_overflow_first _ s hsp)]
    rfl

/-! ## Returning from the software interrupt -/

/-- The return from an interrupt whose flag byte can be popped: the target is popped with the flags restored. -/
theorem returnFromInterrupt_flags {s : State} (h : s.sp ≠ 0xFF) :
    returnFromInterrupt s =
      pop16 ((s.withSp (s.sp + 1)).withP (flagsFromByte (cellAt s.mem (0x100 + s.sp.toNat + 1)))) >>=
        fun t => goto t.1.toNat t.2 := bind_of_ok (popFlags_ok s h)

/-- Settles O49: all three pops succeed and the popped target is in memory or not; or the third, the second or the
first pop underflows. -/
theorem rtiResult : Obligations.RtiResult := by
  intro s s1 t s3
  refine ⟨fun hsp ht => ?inMemory, fun hsp ht => ?outside, fun hsp => ?third, fun hsp => ?second, fun hsp => ?first⟩
    <;> rw [exec_rti]
  case inMemory =>
    rw [returnFromInterrupt_eq hsp, wordOf_toNat, goto_ok _ _ ht]
    rfl
  case outside =>
    rw [returnFromInterrupt_eq hsp, wordOf_toNat, goto_invalidTarget _ _ ht]
    rfl
  case third =>
    have hs1 : s1.sp = 0xFE := by show s.sp + 1 = 0xFE; rw [hsp]; rfl
    rw [returnFromInterrupt_flags (by rw [hsp]; decide), bind_of_error (pop16_underflow_second s1 hs1)]
    rfl
  case second =>
    have hs1 : s1.sp = 0xFF := by show s.sp + 1 = 0xFF; rw [hsp]; rfl
    rw [returnFromInterrupt_flags (by rw [hsp]; decide), bind_of_error (pop16_underflow_first s1 hs1)]
    rfl
  case first =>
    rw [returnFromInterrupt, bind_of_error (popFlags_underflow s hsp)]
    rfl

end Sys2Proof.Machine
end

section
namespace Sys2Proof.Machine

open Sys2Proof

/-! # The sequencer (46_sequencer.md) -/

/-! ## The step by its status (R260, R261) -/

theorem step_of_not_running {s : State} (h : s.status ≠ .running) : step s = .next s := by
  unfold step
  cases hst : s.status with
  | running => exact absurd hst h
  | idle | stopped | ended | quit | faulted k => rfl

/-- Settles O9: only the status `Running` enables a step. -/
theorem notRunningKeepsState : Obligations.NotRunningKeepsState := fun _ h => step_of_not_running h

theorem afterExec_stopped {t : State} (h : t.status = .stopped) : afterExec (.next t) = .next t := if_pos h

theorem afterExec_hostWindow {t : State} (h : t.status ≠ .stopped) : afterExec (.next t) = .next (hostWindow t) :=
  if_neg h

theorem afterExec_fault (f : Fault) : afterExec (.fault f) = .fault f := rfl

/-- Settles O7: the step answers `afterExec` of the instruction's own answer, in each of its three cases. -/
theorem stepRunsDecodedInstruction : Obligations.StepRunsDecodedInstruction := by
  intro s s1 i hrun hfetch
  rw [step_of_fetch_ok hrun hfetch]
  refine ⟨fun t hexec hst => ?stopped, fun t hexec hst => ?goesOn, fun f hexec => ?faults⟩ <;> rw [hexec]
  case stopped => exact afterExec_stopped hst
  case goesOn => exact afterExec_hostWindow hst
  case faults => exact afterExec_fault f

/-! ## The host window (R266 to R271) -/

section
variable {s : State}

theorem nextMove_listed {move : HostMove} {moves : List HostMove} (h : s.host = move :: moves) :
    nextMove s = (move, s.withHost moves) := by
  unfold nextMove
  rw [h]

theorem nextMove_silent (h : s.host = []) (hrest : s.hostRest = .silent) :
    nextMove s = ({ key := none, quit := false }, s) := by
  unfold nextMove
  rw [h, hrest]

theorem nextMove_free {n : Nat} (h : s.host = []) (hrest : s.hostRest = .free n) :
    nextMove s = ({ key := Config.freeKey n, quit := Config.freeQuit n }, s.withHostRest (.free (n + 1))) := by
  unfold nextMove
  rw [h, hrest]

end

theorem nextMove_mem (s : State) : (nextMove s).2.mem = s.mem := (congrArg State.mem (nextMove_state s)).trans rfl

/-- Settles O10: the three ways to name the move are the three cases of `nextMove`, and its key is written over a clear
`dirty`. -/
theorem hostWindowEffect : Obligations.HostWindowEffect := by
  intro s u move hcases
  have hmove : nextMove s = (move, u) := by
    obtain ⟨moves, hhost, rfl⟩ | ⟨hhost, hrest, rfl, rfl⟩ | ⟨n, hhost, hrest, rfl, rfl⟩ := hcases
    · exact nextMove_listed hhost
    · exact nextMove_silent hhost hrest
    · exact nextMove_free hhost hrest
  have hmem : s.mem = u.mem := by rw [← nextMove_mem, hmove]
  rw [hostWindow_eq, hmove, hmem]
  refine ⟨fun k hkey => ?key, fun hkey => ?noKey⟩ <;> dsimp only <;> rw [hkey] <;> rfl

/-! ## Faults end the run (60_exceptions.md R298) -/

/-- `t` holds what the host alone changes (`running`, its moves, the snapshot) as `s` holds it. -/
structure KeepsHostSide (s t : State) : Prop where
  running : t.running = s.running
  host : t.host = s.host
  hostRest : t.hostRest = s.hostRest
  snapshot : t.snapshot = s.snapshot

theorem Keeps.keepsHostSide {s t : State} (h : Keeps s t) : KeepsHostSide s t :=
  ⟨h.running, h.host, h.hostRest, h.snapshot⟩

theorem SameButFetch.keepsHostSide {s t : State} (h : SameButFetch s t) : KeepsHostSide s t := by
  obtain ⟨-, -, -, -, -, -, -, -, running, -, snapshot, host, hostRest⟩ := h.fields
  exact ⟨running, host, hostRest, snapshot⟩

theorem KeepsHostSide.trans {s t u : State} (h : KeepsHostSide s t) (h' : KeepsHostSide t u) : KeepsHostSide s u :=
  ⟨h'.running.trans h.running, h'.host.trans h.host, h'.hostRest.trans h.hostRest, h'.snapshot.trans h.snapshot⟩

/-- A fault in an instruction's body carries a state the body reached, marked with the fault's kind. -/
theorem BodyFault.state_eq {s : State} {f : Fault} (h : BodyFault s f) :
    ∃ t, Keeps s t ∧ f.state = t.faulted f.kind := by
  cases h with
  | outOfBounds _ t h | addressCalculation t h | stackOverflow t h | stackUnderflow t h | invalidTarget _ t h =>
    exact ⟨t, h, rfl⟩

/-- A fault of the decoder carries the state after the bytes it consumed, marked with the fault's kind. -/
theorem fetch_error_state {s : State} {f : Fault} (h : fetch s = .error f) :
    ∃ t, SameButFetch s t ∧ f.state = t.faulted f.kind := by
  obtain ⟨t, _, hsame, ⟨_, rfl⟩ | rfl⟩ := fetch_error h <;> exact ⟨t, hsame, rfl⟩

theorem fetch_ok_same {s s1 : State} {i : Instr} (h : fetch s = .ok (some i, s1)) : SameButFetch s s1 := by
  obtain ⟨_, hr⟩ | ⟨_, _, hr, hsame, -, -⟩ := fetch_ok h <;> cases hr
  exact hsame

/-- Whatever raised it, a step's fault carries a state before any host window, marked with the fault's kind. -/
theorem step_fault_state {s : State} {f : Fault} (h : step s = .fault f) :
    ∃ t, KeepsHostSide s t ∧ f.state = t.faulted f.kind := by
  obtain ⟨_, hfetch | ⟨i, s1, hfetch, hexec⟩⟩ := step_fault h
  · obtain ⟨t, hsame, hstate⟩ := fetch_error_state hfetch
    exact ⟨t, hsame.keepsHostSide, hstate⟩
  · obtain ⟨t, hkeeps, hstate⟩ := (exec_fault hexec).state_eq
    exact ⟨t, (fetch_ok_same hfetch).keepsHostSide.trans hkeeps.keepsHostSide, hstate⟩

/-- Settles O15: the fault's state differs in its status from one that no host window touched, and that status enables
no step. -/
theorem faultsAreTerminal : Obligations.FaultsAreTerminal := by
  intro s f h
  obtain ⟨t, ⟨running, host, hostRest, snapshot⟩, hstate⟩ := step_fault_state h
  rw [hstate]
  exact ⟨rfl, running, host, hostRest, snapshot, step_of_not_running (nofun : Status.faulted f.kind ≠ .running)⟩

end Sys2Proof.Machine
end

section
namespace Sys2Proof.Machine

open Sys2Proof

/-! # The stack faults (60_exceptions.md R295, R296)

An instruction that has the room its pushes or pops need raises no stack fault, and one that has not raises the fault of
its own kind. -/

/-! ## Room on the stack -/

/-- How many bytes an instruction pushes. -/
def pushedBytes : Mnemonic → Nat
  | .pha | .php => 1
  | .jsr => 2
  | .brk => 3
  | _ => 0

/-- How many bytes an instruction pops. -/
def poppedBytes : Mnemonic → Nat
  | .pla | .plp => 1
  | .rts => 2
  | .rti => 3
  | _ => 0

theorem toNat_lt_one_iff {sp : Byte} : sp.toNat < 1 ↔ sp = 0x00 := by
  bv_omega

theorem lt_toNat_add_one_iff {sp : Byte} : 255 < sp.toNat + 1 ↔ sp = 0xFF := by
  bv_omega

theorem lt_pushedBytes_iff {mn : Mnemonic} {sp : Byte} :
    sp.toNat < pushedBytes mn ↔
      (mn ∈ [.pha, .php] ∧ sp = 0x00) ∨ (mn = .jsr ∧ sp.toNat < 2) ∨ (mn = .brk ∧ sp.toNat < 3) := by
  rw [← toNat_lt_one_iff]
  cases mn <;> simp [pushedBytes]

theorem lt_add_poppedBytes_iff {mn : Mnemonic} {sp : Byte} :
    255 < sp.toNat + poppedBytes mn ↔
      (mn ∈ [.pla, .plp] ∧ sp = 0xFF) ∨ (mn = .rts ∧ 253 < sp.toNat) ∨ (mn = .rti ∧ 252 < sp.toNat) := by
  have hlt := sp.isLt
  rw [← lt_toNat_add_one_iff]
  cases mn <;> simp [poppedBytes] <;> omega

/-! ## Without the room -/

theorem push16_overflow (w : Word) {s : State} (h : s.sp.toNat < 2) : ∃ t, push16 w s = .error (.stackOverflow t) := by
  obtain h0 | h1 : s.sp = 0x00 ∨ s.sp = 0x01 := by bv_omega
  · exact ⟨_, push16_overflow_first w s h0⟩
  · exact ⟨_, push16_overflow_second w s h1⟩

theorem pop16_underflow {s : State} (h : 253 < s.sp.toNat) : ∃ t, pop16 s = .error (.stackUnderflow t) := by
  obtain h0 | h1 : s.sp = 0xFF ∨ s.sp = 0xFE := by bv_omega
  · exact ⟨_, pop16_underflow_first s h0⟩
  · exact ⟨_, pop16_underflow_second s h1⟩

theorem takeInterrupt_overflow {s : State} (h : s.sp.toNat < 3) :
    ∃ t, takeInterrupt s = .error (.stackOverflow t) := by
  by_cases h2 : s.sp = 0x02
  · exact ⟨_, takeInterrupt_overflow_flags h2⟩
  · obtain ⟨t, ht⟩ := push16_overflow (pcWord s) (s := s) (by bv_omega)
    exact ⟨t, takeInterrupt_overflow_pc ht⟩

theorem returnFromInterrupt_underflow {s : State} (h : 252 < s.sp.toNat) :
    ∃ t, returnFromInterrupt s = .error (.stackUnderflow t) := by
  by_cases hsp : s.sp = 0xFF
  · exact ⟨_, bind_of_error (popFlags_underflow s hsp)⟩
  · have hnext : 253 < (s.sp + 1).toNat := by bv_omega
    obtain ⟨t, ht⟩ := pop16_underflow
      (s := (s.withSp (s.sp + 1)).withP (flagsFromByte (cellAt s.mem (0x100 + s.sp.toNat + 1)))) hnext
    exact ⟨t, (returnFromInterrupt_flags hsp).trans (bind_of_error ht)⟩

theorem exec_stackOverflow {i : Instr} {s : State} (h : s.sp.toNat < pushedBytes i.mnemonic) :
    ∃ t, exec i s = .fault (.stackOverflow t) := by
  cases i with
  | pha => exact ⟨_, finish_fault_iff.mpr (bind_of_error (push8_overflow _ s (toNat_lt_one_iff.mp h)))⟩
  | php => exact ⟨_, finish_fault_iff.mpr (bind_of_error (push8_overflow _ s (toNat_lt_one_iff.mp h)))⟩
  | jsr w =>
    obtain ⟨t, ht⟩ := push16_overflow (pcWord s) h
    exact ⟨t, (exec_jsr w s).trans (finish_fault_iff.mpr (bind_of_error ht))⟩
  | brk =>
    obtain ⟨t, ht⟩ := takeInterrupt_overflow h
    exact ⟨t, finish_fault_iff.mpr ht⟩
  | _ => exact absurd h (Nat.not_lt_zero _)

theorem exec_stackUnderflow {i : Instr} {s : State} (h : 255 < s.sp.toNat + poppedBytes i.mnemonic) :
    ∃ t, exec i s = .fault (.stackUnderflow t) := by
  cases i with
  | pla => exact ⟨_, finish_fault_iff.mpr (bind_of_error (pop8_underflow s (lt_toNat_add_one_iff.mp h)))⟩
  | plp => exact ⟨_, finish_fault_iff.mpr (bind_of_error (popFlags_underflow s (lt_toNat_add_one_iff.mp h)))⟩
  | rts =>
    obtain ⟨t, ht⟩ := pop16_underflow (Nat.lt_of_add_lt_add_right (n := 2) h)
    exact ⟨t, finish_fault_iff.mpr (bind_of_error ht)⟩
  | rti =>
    obtain ⟨t, ht⟩ := returnFromInterrupt_underflow (Nat.lt_of_add_lt_add_right (n := 3) h)
    exact ⟨t, finish_fault_iff.mpr ht⟩
  | _ => exact absurd h (Nat.not_lt.mpr (Nat.le_of_lt_succ s.sp.isLt))

/-! ## With the room -/

/-- A fault that is neither of the two stack faults. -/
def Fault.OffStack (f : Fault) : Prop := ∀ t, f ≠ .stackOverflow t ∧ f ≠ .stackUnderflow t

theorem OperandFault.offStack {s : State} {f : Fault} (h : OperandFault s f) : f.OffStack := by
  intro t
  obtain ⟨u, _, ⟨a, _, rfl⟩ | rfl⟩ := h
  · exact ⟨nofun, nofun⟩
  · exact ⟨nofun, nofun⟩

theorem goto_offStack {a : Nat} {s : State} {f : Fault} (h : goto a s = .error f) : f.OffStack := by
  obtain ⟨_, rfl⟩ := goto_error_iff.mp h
  exact fun t => ⟨nofun, nofun⟩

theorem jumpTo_offStack {m : AddrMode} {s : State} {f : Fault} (h : jumpTo m s = .error f) : f.OffStack := by
  obtain hres | ⟨a, _, hgoto⟩ := bind_error_iff.mp h
  · exact (resolveAddress_error hres).offStack
  · exact goto_offStack hgoto

/-- With room for its three pushes an interrupt can only fail to read its vector or to go there. -/
theorem takeInterrupt_offStack {s : State} {f : Fault} (hsp : 3 ≤ s.sp.toNat) (h : takeInterrupt s = .error f) :
    f.OffStack := by
  rw [takeInterrupt_entered hsp] at h
  obtain hread | ⟨t, _, hgoto⟩ := bind_error_iff.mp h
  · exact (OperandFault.ofRead16 hread).offStack
  · exact goto_offStack hgoto

/-- Of these only those that go somewhere can still fault, and HALT needs no room. -/
theorem stackOrHalt_offStack {i : Instr} {s : State} {f : Fault}
    (hi : i ∈ [.pha, .pla, .php, .plp, .rts, .brk, .rti, .halt]) (hpush : pushedBytes i.mnemonic ≤ s.sp.toNat)
    (hpop : s.sp.toNat + poppedBytes i.mnemonic ≤ 255) (h : exec i s = .fault f) : f.OffStack := by
  simp only [List.mem_cons, List.not_mem_nil, or_false] at hi
  obtain rfl | rfl | rfl | rfl | rfl | rfl | rfl | rfl := hi
  · rw [exec_pha, bind_of_ok (push8_ok _ s (mt toNat_lt_one_iff.mpr (Nat.not_lt.mpr hpush)))] at h
    cases h
  · rw [exec_pla, bind_of_ok (pop8_ok s (mt lt_toNat_add_one_iff.mpr (Nat.not_lt.mpr hpop)))] at h
    cases h
  · rw [exec_php, bind_of_ok (push8_ok _ s (mt toNat_lt_one_iff.mpr (Nat.not_lt.mpr hpush)))] at h
    cases h
  · rw [exec_plp, bind_of_ok (popFlags_ok s (mt lt_toNat_add_one_iff.mpr (Nat.not_lt.mpr hpop)))] at h
    cases h
  · rw [exec_rts, bind_of_ok (pop16_ok s (Nat.le_of_add_le_add_right hpop))] at h
    exact goto_offStack (finish_fault_iff.mp h)
  · rw [exec_brk] at h
    exact takeInterrupt_offStack hpush (finish_fault_iff.mp h)
  · rw [exec_rti, returnFromInterrupt_eq (Nat.le_of_add_le_add_right hpop)] at h
    exact goto_offStack (finish_fault_iff.mp h)
  · cases h

theorem exec_offStack {i : Instr} {s : State} {f : Fault} (hpush : pushedBytes i.mnemonic ≤ s.sp.toNat)
    (hpop : s.sp.toNat + poppedBytes i.mnemonic ≤ 255) (h : exec i s = .fault f) : f.OffStack := by
  have hshape := hasShape i
  have hrun := h
  rw [exec_eq] at hrun
  generalize shapeOf i.mnemonic i.mode = sh at hrun hshape
  cases hshape with
  | read => exact (readThen_operandFault hrun).offStack
  | store => exact (storeThen_operandFault hrun).offStack
  | modify => exact (modifyThen_operandFault hrun).offStack
  | shiftA | register => cases hrun
  | branch flag want b =>
    dsimp only [Shape.run] at hrun
    split at hrun
    · exact jumpTo_offStack (finish_fault_iff.mp hrun)
    · cases hrun
  | jump => exact jumpTo_offStack (finish_fault_iff.mp hrun)
  | call w hi =>
    subst hi
    rw [exec_jsr, bind_of_ok (push16_ok _ s hpush)] at h
    exact goto_offStack (finish_fault_iff.mp h)
  | other hi => exact stackOrHalt_offStack hi hpush hpop h

/-! ## Who raises which -/

theorem exec_stackOverflow_iff {i : Instr} {s : State} :
    (∃ t, exec i s = .fault (.stackOverflow t)) ↔ s.sp.toNat < pushedBytes i.mnemonic := by
  refine ⟨fun ⟨t, h⟩ => ?_, exec_stackOverflow⟩
  by_contra hpush
  by_cases hpop : 255 < s.sp.toNat + poppedBytes i.mnemonic
  · obtain ⟨u, hu⟩ := exec_stackUnderflow hpop
    cases hu.symm.trans h
  · exact (exec_offStack (Nat.not_lt.mp hpush) (Nat.not_lt.mp hpop) h t).1 rfl

theorem exec_stackUnderflow_iff {i : Instr} {s : State} :
    (∃ t, exec i s = .fault (.stackUnderflow t)) ↔ 255 < s.sp.toNat + poppedBytes i.mnemonic := by
  refine ⟨fun ⟨t, h⟩ => ?_, exec_stackUnderflow⟩
  by_contra hpop
  by_cases hpush : s.sp.toNat < pushedBytes i.mnemonic
  · obtain ⟨u, hu⟩ := exec_stackOverflow hpush
    cases hu.symm.trans h
  · exact (exec_offStack (Nat.not_lt.mp hpush) (Nat.not_lt.mp hpop) h t).2 rfl

/-- Settles O51: an instruction overflows the stack when it pushes more bytes than SP counts, and underflows it when it
pops more than lie above SP. -/
theorem stackFaultsExactly : Obligations.StackFaultsExactly := by
  intro i s
  exact ⟨exec_stackOverflow_iff.trans lt_pushedBytes_iff, exec_stackUnderflow_iff.trans lt_add_poppedBytes_iff⟩

end Sys2Proof.Machine
end

section
namespace Sys2Proof.Machine

open Sys2Proof

/-! # The host's load, entry and boot (70_reset_and_hazards.md R332 to R334) -/

/-! ## Consecutive cells -/

theorem cellAt_setCells_outside {bytes : List Byte} {m : Memory} {a b : Nat} (h : b < a ∨ a + bytes.length ≤ b) :
    cellAt (setCells m a bytes) b = cellAt m b := by
  induction bytes generalizing m a with
  | nil => rfl
  | cons v bytes ih =>
    rw [List.length_cons] at h
    calc cellAt (setCells (setCell m a v) (a + 1) bytes) b
        = cellAt (setCell m a v) b := ih (by omega)
      _ = cellAt m b := cellAt_setCell_other m v (by omega)

theorem cellAt_setCells_inside {bytes : List Byte} {m : Memory} {a k : Nat} (h : k < bytes.length) :
    cellAt (setCells m a bytes) (a + k) = bytes[k] := by
  induction bytes generalizing m a k with
  | nil => cases h
  | cons v bytes ih =>
    cases k with
    | zero =>
      calc cellAt (setCells (setCell m a v) (a + 1) bytes) a
          = cellAt (setCell m a v) a := cellAt_setCells_outside (.inl (Nat.lt_succ_self a))
        _ = v := cellAt_setCell_same m a v
    | succ k =>
      have hk : k < bytes.length := Nat.lt_of_succ_lt_succ h
      calc cellAt (setCells (setCell m a v) (a + 1) bytes) (a + (k + 1))
          = cellAt (setCells (setCell m a v) (a + 1) bytes) (a + 1 + k) := congrArg _ (by omega)
        _ = bytes[k] := ih hk

/-! ## Loading -/

theorem hostLoad_tooLong {addr : Nat} {bytes : List Byte} (s : State) (h : memSize < addr + bytes.length) :
    hostLoad addr bytes s = none :=
  if_pos h

theorem hostLoad_fits {addr : Nat} {bytes : List Byte} (s : State) (h : addr + bytes.length ≤ memSize) :
    hostLoad addr bytes s = some (s.withMem (setCells s.mem addr bytes)) :=
  if_neg (Nat.not_lt.mpr h)

theorem hostLoadAndEnter_tooLong {addr : Nat} {bytes : List Byte} (s : State) (h : memSize < addr + bytes.length) :
    hostLoadAndEnter addr bytes s = none := by
  rw [hostLoadAndEnter, hostLoad_tooLong s h]

theorem hostLoadAndEnter_fits {addr : Nat} {bytes : List Byte} (s : State) (h : addr + bytes.length ≤ memSize) :
    hostLoadAndEnter addr bytes s = some (((s.withMem (setCells s.mem addr bytes)).withPc addr).withIspc addr) := by
  rw [hostLoadAndEnter, hostLoad_fits s h]

/-- Settles O14: the memory of the clause is that of `setCells`, byte by byte and nowhere else. -/
theorem hostLoadAndBoot : Obligations.HostLoadAndBoot := by
  refine ⟨fun s addr bytes => ⟨fun h => ?tooLong, fun h => ?fits⟩, fun s => rfl⟩
  case tooLong => exact ⟨hostLoad_tooLong s h, hostLoadAndEnter_tooLong s h⟩
  case fits =>
    exact ⟨setCells s.mem addr bytes, hostLoad_fits s h, hostLoadAndEnter_fits s h,
      fun k hk => cellAt_setCells_inside hk, fun b hb => cellAt_setCells_outside hb⟩

end Sys2Proof.Machine
end
